-- ==== Sys2Proof/Word.lean ====
section
/-! DEFINITION. The words of the Idobar LS8: bytes, 16-bit and 32-bit words, and 48-bit addresses. -/

namespace Sys2Proof

/-- One byte (spec/00 section 5.2). -/
abbrev Byte := BitVec 8

/-- A 16-bit field: SEQ, a sequence gap (R18, R26). -/
abbrev Half := BitVec 16

/-- A 32-bit count that wraps: ENC, a position, a frame number, producer and consumer (R18, R68, R138). -/
abbrev Count := BitVec 32

/-- A 48-bit byte address of the fabric (R1). -/
abbrev Addr := BitVec 48

/-- A lane number, 0 to 7. -/
abbrev Lane := Fin 8

end Sys2Proof
end

