-- ==== Sys2Proof/Syntax.lean ====
section
/-! DEFINITION. The commands of the block: one constructor for each row of spec/opcode_table.json, with its operands.
The rows name no operands (their field lists are empty), so the operands are those the rules give the operation. -/

namespace Sys2Proof

/-- A fabric write (R1): address of the first byte, requester tag, data (its length is the request's length). -/
structure FabricWrite where
  addr : Addr
  tag  : Byte
  data : List Byte
  deriving DecidableEq, Repr

/-- The mailbox written by one PLAN write at offsets 0xF40 to 0xF4D (R157): the requester tag of the write, the three
argument words and the command's tag byte. The code byte is the command's own (R187). -/
structure Mailbox where
  reqTag : Byte
  arg0   : Count
  arg1   : Count
  arg2   : Count
  tag    : Byte
  deriving DecidableEq, Repr

/-- The commands (spec/opcode_table.json; INVENTORY.md, Instructions). -/
inductive Instr where
  /-- POWER_ON_RESET: RESET_N asserted with these PLAN_SEL straps (R15, R4). -/
  | powerOnReset (planSel : Byte)
  /-- READ: a fabric read is offered (R1, R3). -/
  | read (addr : Addr) (len : Nat) (tag : Byte)
  /-- READ_RESPONSE: the memory controller returns a response (R3). -/
  | readResponse (tag : Byte) (data : List Byte)
  /-- PASS_WRITE: a fabric write is offered (R6). -/
  | passWrite (w : FabricWrite)
  /-- PLAN_WRITE: a fabric write is offered (R7, R154). -/
  | planWrite (w : FabricWrite)
  /-- CONSUMER_WORD: the four-byte PLAN write of the consumer word (R140). -/
  | consumerWord (reqTag : Byte) (value : Count)
  /-- COMMIT, code 0x01 (R161, R162). -/
  | commit (m : Mailbox)
  /-- START, code 0x02 (R172). -/
  | start (m : Mailbox)
  /-- STOP, code 0x03 (R175). -/
  | stop (m : Mailbox)
  /-- ABORT, code 0x04 (R178). -/
  | abort (m : Mailbox)
  /-- FLUSH, code 0x05 (R88). -/
  | flush (m : Mailbox)
  /-- RELEASE, code 0x06 (R86). -/
  | release (m : Mailbox)
  /-- SNAPSHOT, code 0x07 (R166). -/
  | snapshot (m : Mailbox)
  /-- CLEAR_ERRORS, code 0x08 (R148). -/
  | clearErrors (m : Mailbox)
  /-- INJECT, code 0x09 (R37). -/
  | inject (m : Mailbox)
  /-- UNKNOWN: a command word whose code names no command (R158, R187). -/
  | unknown (code : Byte) (m : Mailbox)
  /-- LINE_START: a landing burst at a multiple of WIN_STRIDE is offered (R17, R22). -/
  | lineStart (w : FabricWrite)
  /-- CONTINUATION: any other landing burst is offered (R17, R23). -/
  | continuation (w : FabricWrite)
  /-- DERIVED_REQUEST_TAKEN: the memory port takes a fabric-derived request (R2, R12). -/
  | derivedRequestTaken
  /-- RECORD_TAKEN: the memory port takes a report record (R139). -/
  | recordTaken
  /-- REPORT_WORD_TAKEN: the memory port takes a producer word or an acknowledge word (R142). -/
  | reportWordTaken
  /-- SNAPSHOT_WRITE_TAKEN: the memory port takes a snapshot block write (R168). -/
  | snapshotWriteTaken
  /-- FILL_WRITE_TAKEN: the memory port takes a fill write (R132). -/
  | fillWriteTaken
  /-- SEAL_TIMER_EXPIRY: the seal timer reaches 0 (R113). -/
  | sealTimerExpiry
  /-- ATTENTION_TIMER_EXPIRY: the attention timer reaches 0 (R151). -/
  | attentionTimerExpiry
  deriving DecidableEq, Repr

end Sys2Proof
end

