-- ==== Sys2Proof/Decode.lean ====
section
/-! DEFINITION. Decoding. No row of spec/opcode_table.json gives bits, so no word spells a command of the table
(`decodeTableWord` answers none). The command codes of R187 are decoded here for the mailbox. -/

namespace Sys2Proof

/-- The nine commands of the mailbox (R157, R187). -/
inductive MailCommand where
  | commit | start | stop | abort | flush | release | snapshot | clearErrors | inject
  deriving DecidableEq, Repr

/-- The command a code byte names (R187); every other code, 0x00 included, names none. -/
def decodeCommand (code : Byte) : Option MailCommand :=
  match code.toNat with
  | 1 => some .commit
  | 2 => some .start
  | 3 => some .stop
  | 4 => some .abort
  | 5 => some .flush
  | 6 => some .release
  | 7 => some .snapshot
  | 8 => some .clearErrors
  | 9 => some .inject
  | _ => none

/-- The code byte of a command (R187). -/
def MailCommand.code : MailCommand → Byte
  | .commit => 0x01
  | .start => 0x02
  | .stop => 0x03
  | .abort => 0x04
  | .flush => 0x05
  | .release => 0x06
  | .snapshot => 0x07
  | .clearErrors => 0x08
  | .inject => 0x09

/-- The command that a word of the opcode table spells. No row of the table gives bits, so there is none. -/
def decodeTableWord (_nbits _w : Nat) : Option Instr := none

end Sys2Proof
end

