-- ==== Sys2Proof/Config.lean ====
section
/-! DEFINITION. What the part fixes: capacities and places. The spec leaves no result of a command undefined, so
there is no free value here. -/

namespace Sys2Proof.Config

/-- A page is 4 KiB (spec/00 section 5.1). -/
def pageBytes : Nat := 4096
/-- PLAN_BASE is PLAN_SEL times 16 MiB (R4). -/
def planUnit : Nat := 16777216
/-- The address space has 48 bits (spec/00 section 5.1). -/
def addressSpace : Nat := 281474976710656
/-- A request moves 1 to 256 bytes (R1, R11). -/
def maxBurst : Nat := 256
/-- At most four frames are open (R67). -/
def maxOpen : Nat := 4
/-- A frame's run list holds at most 16 runs (R67, R82). -/
def maxRuns : Nat := 16
/-- A row is 65536 fine units (spec/00 section 4). -/
def fine : Nat := 65536
/-- The largest value of a saturating 16-bit count (R34, R145, R155). -/
def max16 : Nat := 65535
/-- The largest value of a saturating 32-bit count (R119, R125). -/
def max32 : Nat := 4294967295
/-- The mark-lost count saturates at 255 (R64). -/
def maxMarkLost : Nat := 255
/-- A line tag has 16 bytes (R18). -/
def tagBytes : Nat := 16
/-- A line has at most 16384 pixels (R18). -/
def maxPix : Nat := 16384
/-- A record of the report ring has 32 bytes (R138). -/
def recordBytes : Nat := 32
/-- DISCARD in the phase map (R91). -/
def discard : Nat := 0xFF

end Sys2Proof.Config
end

