-- ==== Sys2Proof/Machine/State.lean ====
section
/-! DEFINITION. The state of the part, block by block, as plain data, and its value after power-on reset. -/

namespace Sys2Proof.Machine

/-! ## Plan page and live plan -/

/-- An addressed buffer of bytes, in canonical form: addresses strictly rising, no entry equal to 0, which is what an
unlisted address reads as. It holds the plan shadow (R154: after reset every byte is 0). -/
abbrev Memory := List Host.Cell

/-- One entry of the plane table (R90, R186). -/
structure PlaneEntry where
  base     : Nat
  stride   : Nat
  pitch    : Nat
  keepMask : Nat
  fill     : Nat
  deriving DecidableEq, Repr

/-- One entry of the lane table (R16, R26, R41, R93, R186). `lockCode` is the two-bit LOCK_COUNT code. -/
structure LaneEntry where
  winBase    : Nat
  winStride  : Nat
  winLines   : Nat
  lockCode   : Nat
  gapLimit   : Nat
  delay      : Count
  cropFirst  : Nat
  keep       : Nat
  xOffset    : Nat
  markSource : Bool
  deriving DecidableEq, Repr

/-- One entry of the alias table (R20, R186): REQ_TAG (0 unused) and LANE. -/
structure AliasEntry where
  reqTag : Nat
  lane   : Nat
  deriving DecidableEq, Repr

/-- The static fields of the plan (R156, R185, R186). -/
structure StaticPlan where
  phases      : Nat
  phaseRot    : Nat
  pixelBytes  : Nat
  slots       : Nat
  frameRows   : Nat
  roundBias   : Nat
  repeatLen   : Nat
  markOffset  : Nat
  sinkEnable  : Bool
  ringEntries : Nat
  sinkBase    : Nat
  ringBase    : Nat
  phaseMap    : Vector Nat 4
  aliases     : Vector AliasEntry 8
  planes      : Vector PlaneEntry 4
  lanes       : Vector LaneEntry 8
  deriving DecidableEq, Repr

/-- The nine run-time fields of the plan (R156). -/
structure RunPlan where
  laneEnable    : Byte
  markWindow    : Nat
  markGain      : Nat
  markMaxStep   : Nat
  markLostLimit : Nat
  sealTimeout   : Nat
  patchEnable   : Bool
  attnThreshold : Nat
  attnDelay     : Nat
  deriving DecidableEq, Repr

/-- A plan: the fields the blocks act on (R155). -/
structure Plan where
  static : StaticPlan
  run    : RunPlan
  deriving DecidableEq, Repr

/-- A command that is pending until its acknowledge word is handed over (R160). -/
inductive PendingCommand where
  | stop (tag : Byte)
  | snapshot (tag : Byte)
  deriving DecidableEq, Repr

/-- The Plan Unit (R154, R155, R160). -/
structure PlanUnit where
  shadow         : Memory
  live           : Option Plan
  generation     : Nat
  pendingCommand : Option PendingCommand
  deriving DecidableEq, Repr

/-! ## Capture control -/

/-- The device states (R170). -/
inductive DeviceState where
  | dormant | stopped | armed | running | draining
  deriving DecidableEq, Repr

/-- The capture mode of the last START (R170). -/
inductive CaptureMode where
  | continuous | single
  deriving DecidableEq, Repr

/-- The origin mode of the last START (R44). -/
inductive OriginMode where
  | free | mark
  deriving DecidableEq, Repr

/-- Why the device is DRAINING (R170). -/
inductive DrainCause where
  | none | stop | singleDone
  deriving DecidableEq, Repr

/-- Capture control's record (R170). -/
structure Capture where
  device     : DeviceState
  mode       : CaptureMode
  drainCause : DrainCause
  deriving DecidableEq, Repr

/-! ## Lane Trackers -/

/-- Lane states (R27). -/
inductive LaneState where
  | off | seeking | locking | locked
  deriving DecidableEq, Repr

/-- Injection kinds (R37). -/
inductive InjectionKind where
  | drop | seqSkip | encShift | mark | tagFault
  deriving DecidableEq, Repr

/-- A pending injection: kind and countdown 1..8 (R37). -/
structure Injection where
  kind      : InjectionKind
  countdown : Nat
  deriving DecidableEq, Repr

/-- What becomes of the continuations of a set-aside slot (R39). -/
inductive SetAsideMode where
  | reject | absorb
  deriving DecidableEq, Repr

/-- The set-aside slot (R39). -/
structure SetAside where
  slot : Nat
  mode : SetAsideMode
  deriving DecidableEq, Repr

/-- The current line: its slot, the expected next window offset and the line end, a window offset (R21). -/
structure LineExtent where
  slot     : Nat
  expected : Nat
  lineEnd  : Nat
  deriving DecidableEq, Repr

/-- The placement of a TAKING line (R96): NONE, or WRITE with the plane and the row address of R95. -/
inductive Placement where
  | none
  | write (plane : Fin 4) (row : Nat)
  deriving DecidableEq, Repr

/-- The current line context (R21). For SINKING only the slot is kept. -/
inductive LineContext where
  | none
  | taking (line : LineExtent) (frame : Count) (q : Nat) (placement : Placement)
  | discarding (line : LineExtent)
  | complete (line : LineExtent)
  | sinking (slot : Nat)
  deriving DecidableEq, Repr

/-- One Lane Tracker's record (spec/02 section 2.4). -/
structure LaneTracker where
  state     : LaneState
  progress  : Nat
  tagKnown  : Bool
  lastSeq   : Half
  lastP     : Count
  context   : LineContext
  setAside  : Option SetAside
  injection : Option Injection
  deriving DecidableEq, Repr

/-! ## Registration Unit -/

/-- The next boundary (R44): the start of the first frame that has not yet opened. -/
structure Boundary where
  frame      : Count
  start      : Count
  residue    : Nat
  correction : Int
  clamped    : Bool
  fixed      : Bool
  deriving DecidableEq, Repr

/-- The Registration Unit (R44). -/
structure Registration where
  origin     : Option Count
  mode       : OriginMode
  next       : Option Boundary
  correction : Int
  markLost   : Nat
  deriving DecidableEq, Repr

/-! ## Frame Table and seal queue -/

/-- A lane's cursor for an open frame (R67): the next relative position expected, or closed. -/
inductive Cursor where
  | expects (q : Nat)
  | closed
  deriving DecidableEq, Repr

/-- A missing run (R82). -/
structure Run where
  lane  : Lane
  first : Nat
  count : Nat
  deriving DecidableEq, Repr

/-- An open-frame record (R67). -/
structure Frame where
  number     : Count
  slot       : Option (Fin 32)
  start      : Count
  residue    : Nat
  rows       : Nat
  fixed      : Bool
  correction : Int
  clamped    : Bool
  hi         : Option Nat
  cursors    : Vector Cursor 8
  passed     : Byte
  delivered  : Byte
  markTaken  : Bool
  endSeen    : Bool
  firstTime  : Option Count
  missing    : Nat
  damaged    : Nat
  runs       : List Run
  overflow   : Bool
  deriving DecidableEq, Repr

/-- Slot states (R83). -/
inductive SlotState where
  | free | filling | patching | ready | held
  deriving DecidableEq, Repr

/-- The seal timer (R112): idle, or running for one frame with a remaining count of ticks. -/
inductive SealTimer where
  | idle
  | running (frame : Count) (remaining : Nat)
  deriving DecidableEq, Repr

/-- Frame statuses (R108). -/
inductive FrameStatus where
  | complete | incomplete | timedOut | forced | flushed | aborted | skipped
  deriving DecidableEq, Repr

/-- A slot entry of the seal queue (R119, R124) with its patch list (R127), absent when the frame is not handed to the
Patch Engine or its patching is over. -/
structure SlotEntry where
  number     : Count
  slot       : Fin 32
  status     : FrameStatus
  rows       : Nat
  start      : Count
  correction : Int
  clamped    : Bool
  missing    : Nat
  damaged    : Nat
  delivered  : Byte
  firstTime  : Option Count
  markTaken  : Bool
  overflow   : Bool
  filled     : Bool
  abandoned  : Bool
  patchList  : Option (List Run)
  deriving DecidableEq, Repr

/-- A skip entry of the seal queue (R119, R125). -/
structure SkipEntry where
  first      : Count
  count      : Nat
  markTaken  : Bool
  clamped    : Bool
  overflow   : Bool
  missing    : Nat
  damaged    : Nat
  delivered  : Byte
  start      : Count
  correction : Int
  firstTime  : Option Count
  deriving DecidableEq, Repr

/-- An entry of the seal queue (R119). -/
inductive QueueEntry where
  | slot (e : SlotEntry)
  | skip (e : SkipEntry)
  deriving DecidableEq, Repr

/-- The Frame Table (R67, R78, R83, R112, R119). Both lists are oldest first. -/
structure FrameTable where
  openFrames    : List Frame
  slots         : Vector SlotState 32
  lastAllocated : Option (Fin 32)
  sealTimer     : SealTimer
  queue         : List QueueEntry
  deriving DecidableEq, Repr

/-! ## Requests toward the memory controller -/

/-- A request of the memory port (R12). Requests the part builds carry tag 0. -/
inductive MemRequest where
  | read (addr : Nat) (len : Nat) (tag : Byte)
  | write (addr : Nat) (tag : Byte) (data : List Byte)
  deriving DecidableEq, Repr

/-! ## Patch Engine -/

/-- The fields of an ACTIVE patch context (R128). -/
structure PatchWork where
  slot       : Fin 32
  runIndex   : Nat
  posIndex   : Nat
  plane      : Fin 4
  byteOffset : Nat
  waiting    : Option MemRequest
  deriving DecidableEq, Repr

/-- The patch context (R128). -/
inductive PatchContext where
  | idle
  | active (w : PatchWork)
  deriving DecidableEq, Repr

/-! ## Report Unit -/

/-- The standing of a latch (R145). -/
inductive Standing where
  | clear | due | notified
  deriving DecidableEq, Repr

/-- The cause of a lock loss (R36). -/
inductive LockLossCause where
  | gap | ahead
  deriving DecidableEq, Repr

/-- The detail of one raise (R36, R60, R65, R79, R140, R194). -/
inductive LatchDetail where
  | tagReject (reqTag : Byte) (offset : Nat)
  | malformed (code : Nat) (offset : Nat)
  | seqGap (seq gap : Half)
  | duplicate (seq lastSeq : Half)
  | lockLost (cause : LockLossCause) (seq : Half) (p : Count) (gSeq : Half) (gPos : Count)
  | late (seq : Half) (p : Count)
  | markWindow (frame : Count) (lane : Lane) (row : Nat) (error : Int)
  | markLost (frame : Count) (count : Nat)
  | noSlot (frame : Count)
  | badConsumer (value consumer : Count)
  deriving DecidableEq, Repr

/-- An error latch (R145). -/
structure Latch where
  standing  : Standing
  detail    : Option LatchDetail
  count     : Nat
  presented : Bool
  deriving DecidableEq, Repr

/-- An acknowledge word (R159). -/
structure AckWord where
  tag    : Byte
  cls    : Byte
  detail : Byte
  device : DeviceState
  deriving DecidableEq, Repr

/-- The causes of a state notice (R150). -/
inductive NoticeCause where
  | origin | stop | singleDone | abort
  deriving DecidableEq, Repr

/-- A state notice, with its fields as they were when it was handed over (R150, R195). -/
structure StateNotice where
  device     : DeviceState
  cause      : NoticeCause
  generation : Nat
  origin     : Option Count
  deriving DecidableEq, Repr

/-- The kind of a record (R143). `voided` says that CLEAR_ERRORS has been taken since the notice was presented (R148). -/
inductive RecordKind where
  | state
  | error (latch : Fin 52) (voided : Bool)
  | frame
  deriving DecidableEq, Repr

/-- The kind of a write the Report Unit presents (R142). -/
inductive ReportKind where
  | producerWord
  | ackWord
  | snapshotWrite
  | record (k : RecordKind)
  deriving DecidableEq, Repr

/-- A write the Report Unit has presented to the memory port (R142). -/
structure ReportWrite where
  kind : ReportKind
  addr : Nat
  data : List Byte
  deriving DecidableEq, Repr

/-- The attention timer (R151). -/
inductive AttnTimer where
  | idle
  | running (remaining : Nat)
  | expired
  deriving DecidableEq, Repr

/-- The Report Unit (R138, R142, R145, R150 to R152). -/
structure ReportUnit where
  producer        : Count
  consumer        : Count
  latches         : Vector Latch 52
  producerOwed    : Bool
  ackWaiting      : Option AckWord
  snapshotWrites  : List (Nat × List Byte)
  stateNotice     : Option StateNotice
  noticePresented : Bool
  presented       : Option ReportWrite
  attnTimer       : AttnTimer
  attn            : Bool
  deriving DecidableEq, Repr

/-! ## Traffic path -/

/-- A request of the fabric (R1). -/
inductive FabricRequest where
  | read (addr : Addr) (len : Nat) (tag : Byte)
  | write (w : FabricWrite)
  deriving DecidableEq, Repr

/-- What a fabric-derived request is (R11): a forwarded request, a destination or padding write of a frame, or a sink
write. R13 withdraws those of a frame that its seal timer seals. -/
inductive DerivedKind where
  | forward
  | steer (frame : Count)
  | sink
  deriving DecidableEq, Repr

/-- A derived request waiting at the memory port (R11). -/
structure Derived where
  kind : DerivedKind
  req  : MemRequest
  deriving DecidableEq, Repr

/-- The request the fabric port holds, the lane of a LANDING write, and the derived requests not yet taken (R2). -/
structure HeldRequest where
  request : FabricRequest
  lane    : Option Lane
  derived : List Derived
  deriving DecidableEq, Repr

/-- A read response returned to the fabric (R3). -/
structure ReadResponse where
  tag  : Byte
  data : List Byte
  deriving DecidableEq, Repr

/-! ## The whole state -/

/-- The state of the part. `offered`, `memStream`, `fabricOut` and `pending` are the model's own fields (logs 2, 3, 11):
the fabric's requests not yet taken, the stream of requests the memory controller has taken (newest first), the read
responses returned to the fabric (newest first), and the commands that wait. -/
structure State where
  planSel   : Byte
  held      : Option HeldRequest
  offered   : List FabricRequest
  memStream : List MemRequest
  fabricOut : List ReadResponse
  lanes     : Vector LaneTracker 8
  reg       : Registration
  table     : FrameTable
  patch     : PatchContext
  report    : ReportUnit
  plan      : PlanUnit
  capture   : Capture
  pending   : List Instr
  deriving DecidableEq, Repr

/-- The reasons the machine stops with a fault. The part has no exception entry (INVENTORY.md, Faults). -/
inductive Fault where
  /-- A fabric request outside R1: its length is not 1..256, or it is a write that crosses a 4 KiB boundary, which the
  fabric guarantees not to send and to which the spec gives no effect. Raised by the commands READ, PASS_WRITE,
  PLAN_WRITE, LINE_START and CONTINUATION. Safe (log 10). -/
  | fabricGuaranteeBroken
  deriving DecidableEq, Repr

/-- The reasons a command is refused. -/
inductive Refusal where
  /-- exec has no meaning for this row yet. No arm answers it. Safe. -/
  | notModelled (mnemonic : String)
  deriving DecidableEq, Repr

/-! ## Power-on reset (spec/10 section 10.9) -/

/-- A Lane Tracker after power-on reset (R40). -/
def LaneTracker.atReset : LaneTracker :=
  { state := .off, progress := 0, tagKnown := false, lastSeq := 0, lastP := 0, context := .none, setAside := none,
    injection := none }

/-- The Registration Unit after power-on reset (R44). -/
def Registration.atReset : Registration :=
  { origin := none, mode := .free, next := none, correction := 0, markLost := 0 }

/-- The Frame Table after power-on reset (R68, R87, R126). -/
def FrameTable.atReset : FrameTable :=
  { openFrames := [], slots := Vector.replicate 32 .free, lastAllocated := none, sealTimer := .idle, queue := [] }

/-- A latch after power-on reset (R153). -/
def Latch.atReset : Latch := { standing := .clear, detail := none, count := 0, presented := false }

/-- The Report Unit after power-on reset (R153). -/
def ReportUnit.atReset : ReportUnit :=
  { producer := 0, consumer := 0, latches := Vector.replicate 52 Latch.atReset, producerOwed := false,
    ackWaiting := none, snapshotWrites := [], stateNotice := none, noticePresented := false, presented := none,
    attnTimer := .idle, attn := false }

/-- The Plan Unit after power-on reset (R154, R155, R169). -/
def PlanUnit.atReset : PlanUnit := { shadow := [], live := none, generation := 0, pendingCommand := none }

/-- Capture control after power-on reset (R170). -/
def Capture.atReset : Capture := { device := .dormant, mode := .continuous, drainCause := .none }

/-- The machine right after power-on reset with the straps `sel` (R15, R4, spec/10 section 10.9). -/
def State.resetWith (sel : Byte) : State :=
  { planSel := sel, held := none, offered := [], memStream := [], fabricOut := [],
    lanes := Vector.replicate 8 LaneTracker.atReset, reg := Registration.atReset, table := FrameTable.atReset,
    patch := .idle, report := ReportUnit.atReset, plan := PlanUnit.atReset, capture := Capture.atReset, pending := [] }

/-- The machine right after reset. The straps are the environment's: DESIGN CHOICE 0 (log 1, unsafe). -/
def State.reset : State := State.resetWith 0

end Sys2Proof.Machine
end

