-- ==== Sys2Proof/Machine/Operands.lean ====
section
/-! DEFINITION. Reading operands: byte order, the plan shadow, the plan page's layout (R181, R184 to R186), the line tag
(R18, R19, R183), and row keep (R92). -/

namespace Sys2Proof.Machine

/-! ## Byte order (R181) -/

/-- The number that little-endian bytes hold. -/
def leNat : List Byte → Nat
  | [] => 0
  | b :: bs => b.toNat + 256 * leNat bs

/-- The low `width` bytes of a number, least significant first. -/
def leBytes : Nat → Nat → List Byte
  | 0, _ => []
  | width + 1, n => BitVec.ofNat 8 n :: leBytes width (n / 256)

/-- The two's complement of an integer in `width` bytes, little-endian. -/
def leInt (width : Nat) (i : Int) : List Byte := leBytes width (BitVec.ofInt (8 * width) i).toNat

/-! ## The plan shadow as a buffer (R154) -/

/-- The byte at an offset; an unlisted offset reads as 0 (R154). -/
def Memory.read : Memory → Nat → Byte
  | [], _ => 0
  | (k, b) :: rest, a => if a = k then b else if a < k then 0 else Memory.read rest a

/-- Write one byte, keeping the canonical form: a byte of 0 is not listed. -/
def Memory.write : Memory → Nat → Byte → Memory
  | [], a, v => if v = 0 then [] else [(a, v)]
  | (k, b) :: rest, a, v =>
    if a < k then (if v = 0 then (k, b) :: rest else (a, v) :: (k, b) :: rest)
    else if a = k then (if v = 0 then rest else (a, v) :: rest)
    else (k, b) :: Memory.write rest a v

/-- Write bytes at consecutive offsets from `a`. -/
def Memory.writeBytes : Memory → Nat → List Byte → Memory
  | m, _, [] => m
  | m, a, v :: vs => Memory.writeBytes (m.write a v) (a + 1) vs

/-- Every listed address is at least `lo`, they rise strictly, and no listed byte is 0. -/
def Memory.wfFrom : Nat → Memory → Bool
  | _, [] => true
  | lo, (k, b) :: rest => decide (lo ≤ k) && decide (b ≠ 0) && Memory.wfFrom (k + 1) rest

/-- The canonical form. -/
def Memory.wf (m : Memory) : Bool := Memory.wfFrom 0 m

/-- A field of `width` bytes at an offset, little-endian (R181). -/
def Memory.field (m : Memory) : Nat → Nat → Nat
  | 0, _ => 0
  | width + 1, off => (m.read off).toNat + 256 * Memory.field m width (off + 1)

/-- Bit 0 of the byte at an offset. -/
def Memory.flag (m : Memory) (off : Nat) : Bool := (m.read off).getLsbD 0

/-! ## The plan page (R184 to R186) -/

/-- Offsets of the plan page (R184). -/
def offPhaseMap : Nat := 0x080
def offAliases : Nat := 0x0C0
def offPlanes : Nat := 0x100
def offLanes : Nat := 0x200
def offConsumer : Nat := 0xF00
def offArg0 : Nat := 0xF40
def offArg1 : Nat := 0xF44
def offArg2 : Nat := 0xF48
def offCode : Nat := 0xF4C
def offTag : Nat := 0xF4D
/-- The highest byte of the consumer word, whose writing makes the word act (R140, R182). -/
def offConsumerActs : Nat := 0xF03

/-- An entry of the plane table at an offset (R186). -/
def readPlane (m : Memory) (off : Nat) : PlaneEntry :=
  { base := m.field 8 off, stride := m.field 8 (off + 8), pitch := m.field 4 (off + 16),
    keepMask := m.field 1 (off + 20), fill := m.field 2 (off + 22) }

/-- An entry of the lane table at an offset (R186). -/
def readLane (m : Memory) (off : Nat) : LaneEntry :=
  { winBase := m.field 8 off, winStride := m.field 4 (off + 8), winLines := m.field 2 (off + 12),
    lockCode := m.field 1 (off + 14) % 4, gapLimit := m.field 1 (off + 15),
    delay := BitVec.ofNat 32 (m.field 4 (off + 16)), cropFirst := m.field 2 (off + 20), keep := m.field 2 (off + 22),
    xOffset := m.field 4 (off + 24), markSource := m.flag (off + 28) }

/-- The phase map in the shadow, for F phases: entries 0 to F − 1 are read, and the others are not (R91, R186). An entry
that is not read stands as DISCARD, whatever its byte holds. -/
def readPhaseMap (m : Memory) (phases : Nat) : Vector Nat 4 :=
  Vector.ofFn fun i => if i.val < phases then m.field 1 (offPhaseMap + i.val) else Config.discard

/-- The static fields in the shadow (R185, R186). -/
def readStatic (m : Memory) : StaticPlan :=
  { phases := m.field 1 0x00, phaseRot := m.field 1 0x01, pixelBytes := m.field 1 0x02, slots := m.field 1 0x03,
    frameRows := m.field 2 0x04, roundBias := m.field 2 0x06, repeatLen := m.field 4 0x08, markOffset := m.field 4 0x0C,
    sinkEnable := m.flag 0x21, ringEntries := m.field 2 0x24, sinkBase := m.field 8 0x28, ringBase := m.field 8 0x30,
    phaseMap := readPhaseMap m (m.field 1 0x00),
    aliases := Vector.ofFn fun i =>
      { reqTag := m.field 1 (offAliases + 4 * i.val), lane := m.field 1 (offAliases + 4 * i.val + 1) },
    planes := Vector.ofFn fun i => readPlane m (offPlanes + 32 * i.val),
    lanes := Vector.ofFn fun i => readLane m (offLanes + 64 * i.val) }

/-- The run-time fields in the shadow (R156, R185). -/
def readRun (m : Memory) : RunPlan :=
  { laneEnable := m.read 0x20, markWindow := m.field 1 0x10, markGain := m.field 1 0x11, markMaxStep := m.field 4 0x14,
    markLostLimit := m.field 1 0x12, sealTimeout := m.field 4 0x18, patchEnable := m.flag 0x13,
    attnThreshold := m.field 2 0x22, attnDelay := m.field 4 0x1C }

/-- The plan in the shadow (R155, R181). -/
def readPlan (m : Memory) : Plan := { static := readStatic m, run := readRun m }

/-- A plan of zeros. The blocks that read plan fields while no live plan exists read this one; no block does so in a
state that a run reaches (log 18). -/
def Plan.blank : Plan := readPlan []

/-- The live plan the blocks act on (R155). -/
def State.livePlan (s : State) : Plan := s.plan.live.getD Plan.blank

/-! ## Derived plan quantities -/

/-- The number of set bits among the low `bits` bits (spec/00 section 5.3). -/
def popcount : Nat → Nat → Nat
  | 0, _ => 0
  | bits + 1, m => m % 2 + popcount bits (m / 2)

/-- kept(n): the kept rows among the first n rows of a frame, for an eight-bit KEEP_MASK (R92). -/
def keptRows (mask n : Nat) : Nat := n / 8 * popcount 8 mask + popcount 8 (mask &&& (2 ^ (n % 8) - 1))

/-- Relative row i is kept when bit (i mod 8) of KEEP_MASK is set (R92). -/
def rowKept (mask i : Nat) : Bool := mask.testBit (i % 8)

/-- LOCK_COUNT: code 0..3 means 1, 2, 4, 8 (R26). -/
def LaneEntry.lockCount (e : LaneEntry) : Nat := 2 ^ e.lockCode

/-- A lane is vacant when WIN_LINES is 0 (R16). -/
def LaneEntry.vacant (e : LaneEntry) : Bool := decide (e.winLines = 0)

/-- The length of a landing window (R16). -/
def LaneEntry.winBytes (e : LaneEntry) : Nat := e.winLines * e.winStride

/-- A lane's segment length (R93). -/
def LaneEntry.segmentBytes (e : LaneEntry) (pixelBytes : Nat) : Nat := e.keep * pixelBytes

/-- Whether a lane is in LANE_ENABLE (R156). -/
def Plan.enabled (p : Plan) (n : Lane) : Bool := p.run.laneEnable.getLsbD n.val

/-- The plane a phase goes to, or none for DISCARD (R91). -/
def StaticPlan.planeOfPhase (p : StaticPlan) (phase : Nat) : Option (Fin 4) :=
  if h : phase < 4 then
    let e := p.phaseMap[phase]
    if h4 : e < 4 then some ⟨e, h4⟩ else none
  else none

/-- The planes named by phase-map entries 0 to F − 1 (R90). -/
def StaticPlan.planeUsed (p : StaticPlan) (i : Fin 4) : Bool :=
  (List.range p.phases).any fun phase => p.planeOfPhase phase == some i

/-! ## The line tag (R18, R183) -/

/-- The fields of a well-formed line tag (R18). -/
structure LineTag where
  seq  : Half
  enc  : Count
  pix  : Nat
  mark : Bool
  time : Count
  deriving DecidableEq, Repr

/-- The bytes `off` to `off + width − 1` of a burst as a number; bytes a short burst lacks read as 0. -/
def burstField (data : List Byte) (off width : Nat) : Nat := leNat ((data.drop off).take width)

/-- The lowest cause code of a malformed tag, or none for a well-formed one (R19). -/
def tagFault (pixelBytes winStride : Nat) (data : List Byte) : Option Nat :=
  if data.length < Config.tagBytes then some 1
  else if burstField data 0 1 ≠ 0xA6 then some 2
  else if 1 < burstField data 1 1 then some 3
  else if burstField data 10 2 ≠ 0 then some 4
  else if burstField data 8 2 = 0 ∨ Config.maxPix < burstField data 8 2 then some 5
  else if winStride < Config.tagBytes + burstField data 8 2 * pixelBytes then some 6
  else none

/-- The fields of the tag at the head of a line start (R183). -/
def readTag (data : List Byte) : LineTag :=
  { seq := BitVec.ofNat 16 (burstField data 2 2), enc := BitVec.ofNat 32 (burstField data 4 4),
    pix := burstField data 8 2, mark := decide (burstField data 1 1 = 1),
    time := BitVec.ofNat 32 (burstField data 12 4) }

/-! ## Addresses of the parts' regions -/

/-- PLAN_BASE (R4). -/
def State.planBase (s : State) : Nat := Config.planUnit * s.planSel.toNat

/-- The status area follows the plan page (R4). -/
def State.statusBase (s : State) : Nat := s.planBase + Config.pageBytes

/-- The sink page contains SINK_BASE; its low twelve bits are not used (R10). -/
def StaticPlan.sinkPage (p : StaticPlan) : Nat := Config.pageBytes * (p.sinkBase / Config.pageBytes)

/-- The address of the row at kept index k of slot s in plane p (R95). -/
def StaticPlan.rowAddress (p : StaticPlan) (plane : Fin 4) (slot k : Nat) : Nat :=
  p.planes[plane].base + slot * p.planes[plane].stride + k * p.planes[plane].pitch

end Sys2Proof.Machine
end

