-- ==== Sys2Proof/Machine/PlanCheck.lean ====
section
/-! DEFINITION. Plan checks 1 to 15 (R163, R164). Each check is a Bool that is true when the check passes. -/

namespace Sys2Proof.Machine

/-- A power of two 2^k with `lo ≤ k ≤ hi`. -/
def isPowerOfTwo (lo hi n : Nat) : Bool := (List.range (hi + 1)).any fun k => decide (lo ≤ k) && decide (n = 2 ^ k)

/-- `lo ≤ n ≤ hi`. -/
def inRange (lo hi n : Nat) : Bool := decide (lo ≤ n) && decide (n ≤ hi)

/-- n is a multiple of d. -/
def multipleOf (d n : Nat) : Bool := decide (n % d = 0)

/-- Two byte ranges [start, start + length) that share no byte. -/
def disjoint (a b : Nat × Nat) : Bool :=
  decide (a.1 + a.2 ≤ b.1) || decide (b.1 + b.2 ≤ a.1) || decide (a.2 = 0) || decide (b.2 = 0)

/-- Every two of the ranges are disjoint. -/
def pairwiseDisjoint : List (Nat × Nat) → Bool
  | [] => true
  | r :: rest => rest.all (disjoint r) && pairwiseDisjoint rest

/-- The lanes in order. -/
def allLanes : List Lane := [0, 1, 2, 3, 4, 5, 6, 7]

/-- The planes in order. -/
def allPlanes : List (Fin 4) := [0, 1, 2, 3]

/-- Check 1: F is 1..4 and PHASE_ROT is below F. -/
def check1 (p : Plan) : Bool := inRange 1 4 p.static.phases && decide (p.static.phaseRot < p.static.phases)

/-- The phase-map entries 0 to F − 1 (F at most 4). -/
def phaseEntries (p : StaticPlan) : List Nat := p.phaseMap.toList.take p.phases

/-- Check 2: each entry 0 to F − 1 is a plane or DISCARD, one names a plane, and no plane is named twice. -/
def check2 (p : Plan) : Bool :=
  let es := phaseEntries p.static
  let named := es.filter fun e => decide (e < 4)
  es.all (fun e => decide (e < 4) || decide (e = Config.discard)) && !named.isEmpty && decide named.Nodup

/-- Check 3: FRAME_ROWS and REPEAT_LEN. -/
def check3 (p : Plan) : Bool :=
  inRange 16 65535 p.static.frameRows
    && inRange (16 * Config.fine) (Config.fine * p.static.frameRows) p.static.repeatLen

/-- Check 4: MARK_OFFSET, MARK_WINDOW, MARK_GAIN, MARK_MAX_STEP. -/
def check4 (p : Plan) : Bool :=
  decide (p.static.markOffset < p.static.repeatLen) && inRange 1 255 p.run.markWindow && inRange 0 4 p.run.markGain
    && inRange 0 524288 p.run.markMaxStep

/-- Check 5: SLOTS and SEAL_TIMEOUT. -/
def check5 (p : Plan) : Bool := inRange 1 32 p.static.slots && inRange 0 1000000 p.run.sealTimeout

/-- Check 6: PIXEL_BYTES. -/
def check6 (p : Plan) : Bool := inRange 1 2 p.static.pixelBytes

/-- ROW_PITCH is a power of two from 16 to 4096, or a multiple of 4096 up to 1,048,576 (0 is neither: R90 gives the
range from 16 on, log 16). -/
def pitchOk (pitch : Nat) : Bool :=
  isPowerOfTwo 4 12 pitch || (multipleOf 4096 pitch && inRange 1 1048576 pitch)

/-- Check 7 for one used plane. -/
def planeOk (p : StaticPlan) (e : PlaneEntry) : Bool :=
  multipleOf 4096 e.base && multipleOf 4096 e.stride && pitchOk e.pitch && decide (e.keepMask ≠ 0)
    && decide (keptRows e.keepMask p.frameRows * e.pitch ≤ e.stride)

/-- Check 7: every used plane. -/
def check7 (p : Plan) : Bool := allPlanes.all fun i => !p.static.planeUsed i || planeOk p.static p.static.planes[i]

/-- A lane's segment fits a used plane's rows, and lies within one page (check 8, R94). -/
def segmentFits (p : StaticPlan) (e : LaneEntry) (plane : PlaneEntry) : Bool :=
  decide (e.xOffset + e.segmentBytes p.pixelBytes ≤ plane.pitch)
    && (!multipleOf 4096 plane.pitch || decide (e.xOffset % 4096 + e.segmentBytes p.pixelBytes ≤ 4096))

/-- Check 8 for one non-vacant lane. -/
def laneOk (p : StaticPlan) (e : LaneEntry) : Bool :=
  multipleOf 65536 e.winBase && isPowerOfTwo 10 16 e.winStride && inRange 2 4096 e.winLines
    && inRange 0 16383 e.cropFirst && inRange 1 16384 e.keep && decide (e.cropFirst + e.keep ≤ 16384)
    && decide (Config.tagBytes + (e.cropFirst + e.keep) * p.pixelBytes ≤ e.winStride)
    && decide (e.delay.toInt % p.phases = 0)
    && allPlanes.all fun i => !p.planeUsed i || segmentFits p e p.planes[i]

/-- Check 8: every non-vacant lane. -/
def check8 (p : Plan) : Bool := allLanes.all fun n => p.static.lanes[n].vacant || laneOk p.static p.static.lanes[n]

/-- The lanes with a window. -/
def usedLanes (p : StaticPlan) : List Lane := allLanes.filter fun n => !p.lanes[n].vacant

/-- Check 9: the segments of the non-vacant lanes are pairwise disjoint. -/
def check9 (p : Plan) : Bool :=
  pairwiseDisjoint ((usedLanes p.static).map fun n =>
    (p.static.lanes[n].xOffset, p.static.lanes[n].segmentBytes p.static.pixelBytes))

/-- The used entries of the alias table: those with a non-zero REQ_TAG. -/
def usedAliases (p : StaticPlan) : List AliasEntry := p.aliases.toList.filter fun a => decide (a.reqTag ≠ 0)

/-- Check 10: the alias table. -/
def check10 (p : Plan) : Bool :=
  let es := usedAliases p.static
  es.all (fun a => decide (a.lane < 8)) && decide (es.map AliasEntry.reqTag).Nodup
    && (usedLanes p.static).all fun n => es.any fun a => decide (a.lane = n.val)

/-- Check 11: LANE_ENABLE includes non-vacant lanes only. -/
def check11 (p : Plan) : Bool := allLanes.all fun n => !p.enabled n || !p.static.lanes[n].vacant

/-- Check 12: the ring and the attention fields. -/
def check12 (p : Plan) : Bool :=
  multipleOf 4096 p.static.ringBase && isPowerOfTwo 4 12 p.static.ringEntries
    && inRange 1 p.static.ringEntries p.run.attnThreshold && inRange 0 1000000 p.run.attnDelay

/-- The regions of check 13 as (start, length), for a given PLAN_BASE. -/
def planRegions (planBase : Nat) (p : StaticPlan) : List (Nat × Nat) :=
  ((allPlanes.filter fun i => p.planeUsed i).map fun i => (p.planes[i].base, p.slots * p.planes[i].stride))
    ++ ((usedLanes p).map fun n => (p.lanes[n].winBase, p.lanes[n].winBytes))
    ++ [(p.sinkPage, Config.pageBytes), (p.ringBase, Config.recordBytes * p.ringEntries),
        (planBase, Config.pageBytes), (planBase + Config.pageBytes, Config.pageBytes)]

/-- Check 13: the regions lie within the 48-bit address space and are pairwise disjoint. -/
def check13 (planBase : Nat) (p : Plan) : Bool :=
  let rs := planRegions planBase p.static
  rs.all (fun r => decide (r.1 + r.2 ≤ Config.addressSpace)) && pairwiseDisjoint rs

/-- Every slot is FREE (R164). -/
def allSlotsFree (t : FrameTable) : Bool := t.slots.toList.all fun x => decide (x = .free)

/-- A record is presented at the memory port and not yet taken (R144). -/
def ReportUnit.recordPresented (r : ReportUnit) : Bool :=
  match r.presented with
  | some ⟨.record _, _, _⟩ => true
  | _ => false

/-- The ring is empty: producer = consumer and no record is presented (R144). -/
def ReportUnit.ringEmpty (r : ReportUnit) : Bool := decide (r.producer = r.consumer) && !r.recordPresented

/-- The plane table and SLOTS are equal in two plans (R164). -/
def samePlanes (a b : StaticPlan) : Bool := decide (a.planes = b.planes) && decide (a.slots = b.slots)

/-- RING_BASE and RING_ENTRIES are equal in two plans (R164). -/
def sameRing (a b : StaticPlan) : Bool := decide (a.ringBase = b.ringBase) && decide (a.ringEntries = b.ringEntries)

/-- Check 14: the plane table and SLOTS are unchanged, or every slot is FREE. -/
def check14 (live : Option Plan) (t : FrameTable) (p : Plan) : Bool :=
  (live.any fun l => samePlanes p.static l.static) || allSlotsFree t

/-- Check 15: the ring is unchanged, or empty. -/
def check15 (live : Option Plan) (r : ReportUnit) (p : Plan) : Bool :=
  (live.any fun l => sameRing p.static l.static) || r.ringEmpty

/-- The fifteen checks on a plan, in order. -/
def planChecks (s : State) (p : Plan) : List Bool :=
  [check1 p, check2 p, check3 p, check4 p, check5 p, check6 p, check7 p, check8 p, check9 p, check10 p, check11 p,
   check12 p, check13 s.planBase p, check14 s.plan.live s.table p, check15 s.plan.live s.report p]

/-- The number of the first check that fails, counting from `n`. -/
def firstFailing : Nat → List Bool → Option Nat
  | _, [] => none
  | n, ok :: rest => if ok then firstFailing (n + 1) rest else some n

/-- The lowest-numbered plan check that fails (R161). -/
def failedCheck (s : State) (p : Plan) : Option Nat := firstFailing 1 (planChecks s p)

end Sys2Proof.Machine
end

