-- ==== Sys2Proof/Machine/Flags.lean ====
section
/-! DEFINITION. The part's flags: the error latches (R145, R146, R148, R149) and the attention line with its timer
(R151, R152). -/

namespace Sys2Proof.Machine

/-! ## Error latches -/

/-- The six latches of a lane, in the order of R145. -/
inductive LaneLatch where
  | tagReject | malformed | seqGap | duplicate | lockLost | late
  deriving DecidableEq, Repr

/-- The place of a lane latch among its lane's six (R145). -/
def LaneLatch.index : LaneLatch → Fin 6
  | .tagReject => 0
  | .malformed => 1
  | .seqGap => 2
  | .duplicate => 3
  | .lockLost => 4
  | .late => 5

/-- The number of a lane latch: 6 × n + its place (R145). -/
def laneLatch (n : Lane) (k : LaneLatch) : Fin 52 := ⟨6 * n.val + k.index.val, by omega⟩

/-- Latches 48 to 51 (R145). -/
def latchMarkWindow : Fin 52 := 48
def latchMarkLost : Fin 52 := 49
def latchNoSlot : Fin 52 := 50
def latchBadConsumer : Fin 52 := 51

/-- The effect of a raise on its latch (R146). -/
def Latch.raise (d : LatchDetail) (l : Latch) : Latch :=
  { l with
    count := min Config.max16 (l.count + 1)
    detail := if l.standing = .clear then some d else l.detail
    standing := if l.standing = .clear then .due else l.standing }

/-- Apply a function to one latch. -/
def ReportUnit.onLatch (k : Fin 52) (f : Latch → Latch) (r : ReportUnit) : ReportUnit :=
  { r with latches := r.latches.set k (f r.latches[k]) }

/-- Raise a latch (R146). It changes nothing outside the latch. -/
def raise (k : Fin 52) (d : LatchDetail) (s : State) : State :=
  { s with report := s.report.onLatch k (Latch.raise d) }

/-- CLEAR_ERRORS on one latch: CLEAR, detail absent, count kept (R148). -/
def Latch.cleared (l : Latch) : Latch := { l with standing := .clear, detail := none }

/-- Whether some latch is DUE or NOTIFIED (R148). -/
def ReportUnit.anyRaised (r : ReportUnit) : Bool := r.latches.toList.any fun l => decide (l.standing ≠ .clear)

/-- A presented error notice whose latch CLEAR_ERRORS has cleared no longer marks it NOTIFIED (R147, R148). -/
def ReportWrite.voidNotice (w : ReportWrite) : ReportWrite :=
  match w.kind with
  | .record (.error k _) => { w with kind := .record (.error k true) }
  | _ => w

/-- CLEAR_ERRORS on the Report Unit (R148). -/
def ReportUnit.clearErrors (r : ReportUnit) : ReportUnit :=
  { r with
    latches := Vector.ofFn fun k => r.latches[k].cleared
    presented := r.presented.map ReportWrite.voidNotice }

/-- SNAPSHOT zeroes the counts (R149). -/
def ReportUnit.zeroCounts (r : ReportUnit) : ReportUnit :=
  { r with latches := Vector.ofFn fun k => { r.latches[k] with count := 0 } }

/-- A latch in DUE whose notice is not presented has its notice due (R147). -/
def Latch.noticeDue (l : Latch) : Bool := decide (l.standing = .due) && !l.presented

/-- The lowest-numbered latch whose notice is due (R143). -/
def ReportUnit.lowestDue (r : ReportUnit) : Option (Fin 52) :=
  (List.finRange 52).find? fun k => r.latches[k].noticeDue

/-! ## Attention -/

/-- The number of unconsumed records (R138). -/
def ReportUnit.unconsumed (r : ReportUnit) : Nat := (r.producer - r.consumer).toNat

/-- Whether ATTN's condition holds under a plan (R152); with no live plan it is low. -/
def attnCondition (live : Option Plan) (r : ReportUnit) : Bool :=
  match live with
  | none => false
  | some p =>
    decide (p.run.attnThreshold ≤ r.unconsumed) || (decide (r.attnTimer = .expired) && decide (1 ≤ r.unconsumed))

/-- Evaluate the attention line (R152). -/
def evalAttn (s : State) : State :=
  { s with report := { s.report with attn := attnCondition s.plan.live s.report } }

/-- A record taken loads an IDLE attention timer with ATTN_DELAY, if that is not 0 (R151). -/
def AttnTimer.onRecord (delay : Nat) : AttnTimer → AttnTimer
  | .idle => if delay = 0 then .idle else .running delay
  | t => t

/-- The consumer becomes v: with no record unconsumed the attention timer goes IDLE (R151), and the line is evaluated
(R152). -/
def setConsumer (v : Count) (s : State) : State :=
  let r := { s.report with consumer := v }
  evalAttn { s with report := { r with attnTimer := if r.unconsumed = 0 then .idle else r.attnTimer } }

/-- The consumer word acts with value v (R140). With no live plan there is no ring and nothing happens. -/
def consumerActs (v : Count) (s : State) : State :=
  match s.plan.live with
  | none => s
  | some _ =>
    let d := (v - s.report.consumer).toInt
    if d = 0 then s
    else if d < 0 then raise latchBadConsumer (.badConsumer v s.report.consumer) s
    else if d ≤ s.report.unconsumed then setConsumer v s
    else setConsumer s.report.producer s

/-- The counts are reset by a COMMIT that changes the ring (R144). -/
def resetRing (s : State) : State :=
  evalAttn { s with
    report := { s.report with producer := 0, consumer := 0, attnTimer := .idle, producerOwed := true } }

/-- The attention timer expires (R151). A timer that is not RUNNING does not expire. -/
def attentionExpires (s : State) : State :=
  match s.report.attnTimer with
  | .running _ => evalAttn { s with report := { s.report with attnTimer := .expired } }
  | _ => s

end Sys2Proof.Machine
end

