-- ==== Sys2Proof/Machine/Ops.lean ====
section
/-! DEFINITION. Operations the blocks share: on one lane, one frame or one slot, cutting a line (R34), answering a
command (R159), handing over a state notice (R150, R180), and the ranges of bytes that derived writes carry. -/

namespace Sys2Proof.Machine

/-! ## Updates of one lane, frame, slot -/

/-- Apply a function to one Lane Tracker. -/
def onLane (n : Lane) (f : LaneTracker → LaneTracker) (s : State) : State :=
  { s with lanes := s.lanes.set n (f s.lanes[n]) }

/-- Set a lane's line context. -/
def setContext (n : Lane) (c : LineContext) (s : State) : State := onLane n (fun l => { l with context := c }) s

/-- Apply a function to the open frame of a number. -/
def onFrame (number : Count) (f : Frame → Frame) (s : State) : State :=
  { s with table := { s.table with
      openFrames := s.table.openFrames.map fun fr => if fr.number = number then f fr else fr } }

/-- Set the state of a slot. -/
def setSlot (k : Fin 32) (st : SlotState) (s : State) : State :=
  { s with table := { s.table with slots := s.table.slots.set k st } }

/-- Whether some slot is PATCHING. -/
def anyPatching (t : FrameTable) : Bool := t.slots.toList.any fun x => decide (x = .patching)

/-! ## Cut lines (R34) -/

/-- One more damaged line, saturating at 65535 (R34). -/
def Frame.damage (f : Frame) : Frame := { f with damaged := min Config.max16 (f.damaged + 1) }

/-- Cut a lane's line in flight: a TAKING line adds 1 to its frame's damaged count (R34). The caller sets the context
that follows. -/
def cutLine (n : Lane) (s : State) : State :=
  match s.lanes[n].context with
  | .taking _ frame _ _ => onFrame frame Frame.damage s
  | _ => s

/-- A lane record that goes OFF: lock progress 0, last tag kept, context NONE, no set-aside slot, injection kept (R40). -/
def LaneTracker.turnedOff (l : LaneTracker) : LaneTracker :=
  { l with state := .off, progress := 0, context := .none, setAside := none }

/-- A lane goes OFF: a TAKING line is cut first (R40). -/
def laneOff (n : Lane) (s : State) : State := onLane n LaneTracker.turnedOff (cutLine n s)

/-- Every lane goes OFF (R175, R177, R178). -/
def lanesOff (s : State) : State := allLanes.foldl (fun s n => laneOff n s) s

/-- A lane record that enters SEEKING: last tag unknown, context NONE, no set-aside slot, injection kept (R40). An
unknown last tag has lastSEQ and lastP 0, as after reset (log 13). -/
def LaneTracker.seeking (l : LaneTracker) : LaneTracker :=
  { l with state := .seeking, progress := 0, tagKnown := false, lastSeq := 0, lastP := 0, context := .none,
           setAside := none }

/-! ## Answers and notices -/

/-- A result word: class byte and detail byte (R159, R189). -/
abbrev ResultWord := Byte × Byte

def rDone : ResultWord := (0x50, 0x00)
def rNothing : ResultWord := (0x50, 0x01)
def rBusy : ResultWord := (0xE0, 0x01)
def rBadState : ResultWord := (0xE0, 0x02)
def rBadArgument : ResultWord := (0xE0, 0x03)
def rBadSlot : ResultWord := (0xE0, 0x04)
def rRunningField : ResultWord := (0xE0, 0x05)
def rUnknown : ResultWord := (0xE0, 0xFF)
/-- (0xE1, c): plan check c failed (R159). -/
def rPlanInvalid (check : Nat) : ResultWord := (0xE1, BitVec.ofNat 8 check)

/-- Hand over an acknowledge word: the tag, the result word and the device state of this moment. It replaces one that
waits unpresented (R159). -/
def answer (tag : Byte) (r : ResultWord) (s : State) : State :=
  { s with report := { s.report with
      ackWaiting := some { tag := tag, cls := r.1, detail := r.2, device := s.capture.device } } }

/-- Capture control hands over a state notice, with the generation and the origin of this moment; it replaces one that
is not presented, and waits behind one that is (R150, R180). -/
def handNotice (device : DeviceState) (cause : NoticeCause) (s : State) : State :=
  { s with report := { s.report with
      stateNotice := some { device := device, cause := cause, generation := s.plan.generation, origin := s.reg.origin }
      noticePresented := false } }

/-! ## Bytes of derived writes -/

/-- FILL_VALUE over `len` bytes: its low byte with one-byte pixels, low then high byte with two-byte pixels
(R102, R131). -/
def fillBytes (pixelBytes value len : Nat) : List Byte :=
  (List.range len).map fun i =>
    if pixelBytes = 2 ∧ i % 2 = 1 then BitVec.ofNat 8 (value / 256) else BitVec.ofNat 8 value

/-- The number of 256-byte writes that cover n bytes (R102, R131). -/
def chunkCount (n : Nat) : Nat := (n + 255) / 256

/-- The fill pattern over `len` bytes from `addr`, as writes of 256 bytes except the last, in address order (R102). -/
def paddingWrites (pixelBytes value addr len : Nat) : List MemRequest :=
  (List.range (chunkCount len)).map fun i =>
    .write (addr + 256 * i) 0 (fillBytes pixelBytes value (min 256 (len - 256 * i)))

end Sys2Proof.Machine
end

