-- ==== Sys2Proof/Machine/Registration.lean ====
section
/-! DEFINITION. The Registration Unit (spec/03): the clamped correction, the provisional row count and the next boundary
(R50 to R57), the origin (R45 to R48), mark evaluation (R59 to R61) and the mark-lost count (R64, R65). -/

namespace Sys2Proof.Machine

/-! ## The correction and the row count (R52, R53) -/

/-- ρ + L, the uncorrected sum of the boundary recurrence (R50). -/
def frameSpan (p : StaticPlan) (residue : Nat) : Int := residue + p.repeatLen

/-- The lower bound lo of R52. -/
def corrLo (p : Plan) (f : Frame) : Int :=
  max (-(p.run.markMaxStep : Int))
    (((match f.hi with | none => 1 | some h => (h : Int) + 1) * 65536) - frameSpan p.static f.residue)

/-- The upper bound hi of R52. -/
def corrHi (p : Plan) (f : Frame) : Int :=
  max (corrLo p f)
    (min (p.run.markMaxStep : Int)
      (((p.static.frameRows : Int) + 1) * 65536 - 1 - frameSpan p.static f.residue))

/-- The clamped correction c of R52. -/
def corrClamped (p : Plan) (pending : Int) (f : Frame) : Int := min (max pending (corrLo p f)) (corrHi p f)

/-- T = ρ + L + c (R53). -/
def boundarySum (p : Plan) (pending : Int) (f : Frame) : Int :=
  frameSpan p.static f.residue + corrClamped p pending f

/-- N = floor(T / 65536) (R53). -/
def provisionalRows (p : Plan) (pending : Int) (f : Frame) : Nat := (boundarySum p pending f / 65536).toNat

/-- N × F positions (R53, R68). -/
def Frame.extent (p : StaticPlan) (f : Frame) : Nat := f.rows * p.phases

/-- The next boundary after the newest open frame, provisional (R44, R50, R53). -/
def nextBoundary (p : Plan) (pending : Int) (f : Frame) : Boundary :=
  { frame := f.number + 1
    start := f.start + BitVec.ofNat 32 (provisionalRows p pending f * p.static.phases)
    residue := (boundarySum p pending f % 65536).toNat
    correction := corrClamped p pending f
    clamped := decide (corrClamped p pending f ≠ pending)
    fixed := false }

/-- Apply a function to the newest frame of a list (oldest first). -/
def onNewest (f : Frame → Frame) : List Frame → List Frame
  | [] => []
  | [fr] => [f fr]
  | fr :: rest => fr :: onNewest f rest

/-- Recompute the provisional N of the newest open frame and the next boundary (R54). A fixed N is left. -/
def recompute (s : State) : State :=
  match s.table.openFrames.getLast? with
  | none => s
  | some f =>
    if f.fixed then s
    else
      { s with
        table := { s.table with
          openFrames := onNewest (fun fr => { fr with rows := provisionalRows s.livePlan s.reg.correction fr })
            s.table.openFrames }
        reg := { s.reg with next := some (nextBoundary s.livePlan s.reg.correction f) } }

/-- Set the pending correction. -/
def setCorrection (c : Int) (s : State) : State := { s with reg := { s.reg with correction := c } }

/-- Fix the newest open frame's N at its provisional value, with the next boundary, and reset the pending correction to
0 (R55, R56, R57). A frame already fixed is left. -/
def fixNewest (s : State) : State :=
  match s.table.openFrames.getLast? with
  | none => s
  | some f =>
    if f.fixed then s
    else
      { s with
        table := { s.table with openFrames := onNewest (fun fr => { fr with fixed := true }) s.table.openFrames }
        reg := { s.reg with
          next := s.reg.next.map fun b => { b with fixed := true }
          correction := 0 } }

/-- The provisional length of a frame that has not yet opened: floor((ρ + L) / 65536) rows (R50). -/
def unopenedRows (p : StaticPlan) (residue : Nat) : Nat := (residue + p.repeatLen) / 65536

/-! ## Setting the origin (R45 to R48) -/

/-- The mark row r_m and the residue ρ₀ of MARK origin mode (R47). -/
def markOrigin (p : StaticPlan) : Nat × Nat :=
  let whole := p.markOffset / 65536
  let frac := p.markOffset % 65536
  if frac ≤ p.roundBias then (whole, p.roundBias - frac) else (whole + 1, p.roundBias + 65536 - frac)

/-- φ = (ENC + PHASE_ROT) mod F (R46, R47). -/
def originPhase (p : StaticPlan) (enc : Count) : Nat := (enc.toNat + p.phaseRot) % p.phases

/-- The relative position of the establishing line and the residue of frame 0, when a candidate with this ENC and mark
qualifies (R45 to R48). -/
def candidate (p : Plan) (mode : OriginMode) (n : Lane) (enc : Count) (mark : Bool) : Option (Nat × Nat) :=
  match mode with
  | .free => some (originPhase p.static enc, p.static.roundBias)
  | .mark =>
    let r := markOrigin p.static
    if mark && p.static.lanes[n].markSource && decide (r.1 ≠ p.static.frameRows) then
      some (originPhase p.static enc + r.1 * p.static.phases, r.2)
    else none

/-- The start of frame 0, for an origin O and a residue (R49). -/
def originBoundary (origin : Count) (residue : Nat) : Boundary :=
  { frame := 0, start := origin, residue := residue, correction := 0, clamped := false, fixed := true }

/-! ## Mark evaluation (R59 to R61) -/

/-- The mark error e of R60. -/
def markError (p : StaticPlan) (residue row : Nat) : Int :=
  (row : Int) * 65536 - ((p.markOffset : Int) + residue - p.roundBias)

/-- Limit a correction to ±MARK_MAX_STEP (R61, R63). -/
def limitStep (step : Nat) (c : Int) : Int := max (-(step : Int)) (min (step : Int) c)

/-- The open frame of a number. -/
def State.frameOf (s : State) (number : Count) : Option Frame :=
  s.table.openFrames.find? fun f => decide (f.number = number)

/-- A mark inside the window is taken (R61). -/
def takeMark (frame : Count) (e : Int) (s : State) : State :=
  let c := limitStep s.livePlan.run.markMaxStep (Int.tdiv e (2 ^ s.livePlan.run.markGain))
  let s := onFrame frame (fun f => { f with markTaken := true }) s
  recompute { s with reg := { s.reg with correction := c, markLost := 0 } }

/-- Evaluate a line attributed to a frame at a row as a mark, when the conditions of R59 hold (R60, R61). -/
def evaluateMark (n : Lane) (mark : Bool) (frame : Count) (row : Nat) (s : State) : State :=
  match s.frameOf frame with
  | none => s
  | some f =>
    if decide (s.capture.device = .running) && mark && s.livePlan.static.lanes[n].markSource && !f.markTaken then
      let e := markError s.livePlan.static f.residue row
      if (s.livePlan.run.markWindow * 65536 : Int) < |e| then
        raise latchMarkWindow (.markWindow frame n row e) s
      else takeMark frame e s
    else s

/-! ## The mark-lost count (R64, R65) -/

/-- The seal of a frame updates the mark-lost count and may raise MARK_LOST (R64, R65). DESIGN CHOICE (log 27): a seal of
a frame without a mark counts as one that adds also while the count already stands at 255, so it may raise MARK_LOST; the
spec does not say whether such a seal adds. -/
def countMarkLost (f : Frame) (s : State) : State :=
  if f.markTaken then s
  else
    let count := min Config.maxMarkLost (s.reg.markLost + 1)
    let s := { s with reg := { s.reg with markLost := count } }
    let limit := s.livePlan.run.markLostLimit
    if limit ≠ 0 ∧ limit ≤ count then raise latchMarkLost (.markLost f.number count) s else s

end Sys2Proof.Machine
end

