-- ==== Sys2Proof/Machine/Sealing.lean ====
section
/-! DEFINITION. Sealing (spec/06): missing runs (R82), the seal timer (R112), the seal test (R110), the steps of a seal
(R115 to R118), the seal queue (R119, R120, R125) and the end of a single capture (R177). -/

namespace Sys2Proof.Machine

/-! ## Missing runs and cursors (R81, R82) -/

/-- Record a missing run: the count grows, and the run is listed if the list has room (R82). -/
def Frame.recordRun (r : Run) (f : Frame) : Frame :=
  if f.runs.length < Config.maxRuns then { f with missing := f.missing + r.count, runs := f.runs ++ [r] }
  else { f with missing := f.missing + r.count, overflow := true }

/-- Record the positions from a lane's open cursor up to `stop` as missing, if there is one (R80, R81, R115). -/
def Frame.recordUpTo (n : Lane) (stop : Nat) (f : Frame) : Frame :=
  match f.cursors[n] with
  | .closed => f
  | .expects q => if q < stop then f.recordRun { lane := n, first := q, count := stop - q } else f

/-- Set a bit of a lane mask. -/
def setLaneBit (n : Lane) (m : Byte) : Byte := m ||| (1#8 <<< n.val)

/-- A lane moves on past a frame: its open cursor is closed with a run to the frame's end, its bit of the passed mask is
set and so is end-seen; a closed cursor is left (R81). -/
def Frame.passBy (p : StaticPlan) (n : Lane) (f : Frame) : Frame :=
  match f.cursors[n] with
  | .closed => f
  | .expects _ =>
    let f := f.recordUpTo n (f.extent p)
    { f with cursors := f.cursors.set n .closed, passed := setLaneBit n f.passed, endSeen := true }

/-! ## The seal timer (R112) -/

/-- Load the timer for the oldest open frame when its end-seen flag is set, SEAL_TIMEOUT is not 0 and the timer is idle. -/
def loadSealTimer (s : State) : State :=
  match s.table.openFrames with
  | [] => s
  | f :: _ =>
    if f.endSeen && decide (s.livePlan.run.sealTimeout ≠ 0) && decide (s.table.sealTimer = .idle) then
      { s with table := { s.table with sealTimer := .running f.number s.livePlan.run.sealTimeout } }
    else s

/-- The timer stops when it runs for this frame (R115). -/
def SealTimer.stopFor (number : Count) : SealTimer → SealTimer
  | .running f r => if f = number then .idle else .running f r
  | .idle => .idle

/-! ## The seal test (R110) -/

/-- No enabled LOCKED lane is still awaited by the frame: each has its bit in the passed mask. -/
def lanesPassed (s : State) (f : Frame) : Bool :=
  allLanes.all fun n =>
    !(s.livePlan.enabled n && decide (s.lanes[n].state = .locked)) || f.passed.getLsbD n.val

/-- The seal test for the oldest open frame (R110). -/
def sealTest (s : State) : Bool :=
  match s.table.openFrames with
  | [] => false
  | f :: _ => f.fixed && lanesPassed s f

/-! ## The steps of a seal -/

/-- Why a frame seals (R108). -/
inductive SealCause where
  | lanes | timer | fifth | flush | abort
  deriving DecidableEq, Repr

/-- The status of a sealed frame (R108, R111): SKIPPED without a slot, else by the cause and the missing count. -/
def sealStatus (cause : SealCause) (f : Frame) : FrameStatus :=
  if f.slot.isNone then .skipped
  else
    match cause with
    | .lanes => if f.missing = 0 then .complete else .incomplete
    | .timer => .timedOut
    | .fifth => .forced
    | .flush => .flushed
    | .abort => .aborted

/-- Run tails for the enabled lanes, lane 0 to 7, then every cursor is closed (R115 step 3). -/
def Frame.closeAll (p : Plan) (f : Frame) : Frame :=
  let f := allLanes.foldl (fun f n => if p.enabled n then f.recordUpTo n (f.extent p.static) else f) f
  { f with cursors := Vector.replicate 8 .closed }

/-- The line context after the seal of a frame (R116): a line in flight into it is DISCARDING and keeps its expected
next offset. -/
def LineContext.afterSeal (number : Count) : LineContext → LineContext
  | .taking line frame q pl => if frame = number then .discarding line else .taking line frame q pl
  | c => c

/-- Whether a lane has a line in flight into a frame (R116). -/
def LineContext.takingInto (number : Count) : LineContext → Bool
  | .taking _ frame _ _ => decide (frame = number)
  | _ => false

/-- The number of lanes with a line in flight into a frame. -/
def linesInFlight (number : Count) (lanes : Vector LaneTracker 8) : Nat :=
  (allLanes.filter fun n => lanes[n].context.takingInto number).length

/-- `k` more damaged lines, saturating at 65535 (R34, R116). -/
def Frame.damageBy (k : Nat) (f : Frame) : Frame := { f with damaged := min Config.max16 (f.damaged + k) }

/-- Steps of R116 on the lanes: every line in flight into the frame becomes DISCARDING. -/
def cutLanes (number : Count) (lanes : Vector LaneTracker 8) : Vector LaneTracker 8 :=
  Vector.ofFn fun n => { lanes[n] with context := lanes[n].context.afterSeal number }

/-- The slot entry of a sealed frame (R119, R124), with its patch list when it is handed to the Patch Engine (R127). -/
def slotEntryOf (f : Frame) (slot : Fin 32) (status : FrameStatus) (patched : Bool) : SlotEntry :=
  { number := f.number, slot := slot, status := status, rows := f.rows, start := f.start, correction := f.correction,
    clamped := f.clamped, missing := f.missing, damaged := f.damaged, delivered := f.delivered, firstTime := f.firstTime,
    markTaken := f.markTaken, overflow := f.overflow, filled := false, abandoned := false,
    patchList := if patched then some f.runs else none }

/-- A skip entry of one slotless frame (R120, R125). -/
def skipEntryOf (f : Frame) : SkipEntry :=
  { first := f.number, count := 1, markTaken := f.markTaken, clamped := f.clamped, overflow := f.overflow,
    missing := min Config.max32 f.missing, damaged := f.damaged, delivered := f.delivered, start := f.start,
    correction := f.correction, firstTime := f.firstTime }

/-- A skip entry takes in one more slotless frame (R120, R125). -/
def SkipEntry.takeIn (f : Frame) (e : SkipEntry) : SkipEntry :=
  { e with
    count := min Config.max32 (e.count + 1)
    markTaken := e.markTaken || f.markTaken
    clamped := e.clamped || f.clamped
    overflow := e.overflow || f.overflow
    missing := min Config.max32 (e.missing + f.missing)
    damaged := min Config.max16 (e.damaged + f.damaged)
    delivered := e.delivered ||| f.delivered
    firstTime := e.firstTime <|> f.firstTime }

/-- The slotless frame `number` seals right after the frames of a skip entry: the entry's last frame number, first + count − 1
modulo 2^32, is one below it (R120). DEDUCED (log 28): a count held at 2^32 − 1 no longer gives the last frame number, and the
entry goes on taking in the slotless frames that seal behind it, as R120 and the bound of R121 ask. -/
def SkipEntry.precedes (number : Count) (e : SkipEntry) : Bool :=
  decide (e.count = Config.max32) || decide (e.first + BitVec.ofNat 32 e.count = number)

/-- Append a slotless frame: merged into a tail skip entry of the frames just before it, unless `headPresented` says
that the head's record is presented and that entry is the head; else a new skip entry (R120). -/
def appendSkip (headPresented : Bool) (f : Frame) : List QueueEntry → List QueueEntry
  | [] => [.skip (skipEntryOf f)]
  | [.skip e] => if e.precedes f.number && !headPresented then [.skip (e.takeIn f)] else [.skip e, .skip (skipEntryOf f)]
  | [.slot e] => [.slot e, .skip (skipEntryOf f)]
  | e :: e' :: rest => e :: appendSkip false f (e' :: rest)

/-- The seal-queue head's record is presented at the memory port (R120). -/
def ReportUnit.framePresented (r : ReportUnit) : Bool :=
  match r.presented with
  | some ⟨.record .frame, _, _⟩ => true
  | _ => false

/-- Steps 3 and 4 of R117 for a sealed frame: it joins the seal queue, and its slot goes PATCHING or READY. -/
def enqueueSealed (cause : SealCause) (f : Frame) (s : State) : State :=
  match f.slot with
  | none =>
    { s with table := { s.table with queue := appendSkip s.report.framePresented f s.table.queue } }
  | some k =>
    let status := sealStatus cause f
    let patched := s.livePlan.run.patchEnable && decide (status ≠ .aborted) && !f.runs.isEmpty
    let s := { s with table := { s.table with queue := s.table.queue ++ [.slot (slotEntryOf f k status patched)] } }
    setSlot k (if patched then .patching else .ready) s

/-- A frame's record after R115 step 3 and R116: run tails, cursors closed, lines in flight counted damaged. -/
def sealedFrame (s : State) (f : Frame) : Frame :=
  (f.closeAll s.livePlan).damageBy (linesInFlight f.number s.lanes)

/-- R115 step 1: the newest open frame's extent is fixed when it is the one that seals. -/
def fixIfOnly (s : State) : State :=
  match s.table.openFrames with
  | [_] => fixNewest s
  | _ => s

/-- The steps R115 step 2 to R117 on the oldest open frame `f`, with `rest` left open. -/
def sealFrame (cause : SealCause) (f : Frame) (rest : List Frame) (s : State) : State :=
  let done := sealedFrame s f
  let s := { s with
    lanes := cutLanes f.number s.lanes
    table := { s.table with openFrames := rest, sealTimer := s.table.sealTimer.stopFor f.number } }
  enqueueSealed cause done (countMarkLost done s)

/-- The seal of the oldest open frame (R115 to R117). -/
def sealOldest (cause : SealCause) (s : State) : State :=
  let s := fixIfOnly s
  match s.table.openFrames with
  | [] => s
  | f :: rest => sealFrame cause f rest s

/-- The end of a single capture: in SINGLE mode the seal of frame 0 while RUNNING moves the device to DRAINING with
every lane OFF (R177). Its drain completes by R176 (`drainTest`). -/
def singleEnd (s : State) : State :=
  if s.capture.device = .running ∧ s.capture.mode = .single then
    lanesOff { s with capture := { s.capture with device := .draining, drainCause := .singleDone } }
  else s

/-- A seal by a cause other than STOP and ABORT, and what follows it in R118: the end of a single capture, and the seal
timer of the frame that has become oldest. -/
def sealAndTurn (cause : SealCause) (s : State) : State := loadSealTimer (singleEnd (sealOldest cause s))

/-- Evaluate the seal test, and seal for as long as it holds (R109, R110, R118). `fuel` bounds the number of seals. -/
def cascade : Nat → State → State
  | 0, s => s
  | fuel + 1, s => if sealTest s then cascade fuel (sealAndTurn .lanes s) else s

/-- Evaluate the seal test at one of the events of R110. No more than the open frames can seal. -/
def evalSealTest (s : State) : State := cascade s.table.openFrames.length s

/-- A seal of the oldest frame by FORCED, FLUSH or the timer, with the seals that follow from it (R109, R118). -/
def sealWithCascade (cause : SealCause) (s : State) : State := evalSealTest (sealAndTurn cause s)

/-- Seal every open frame with one cause, oldest first, as STOP and ABORT do (R109, R118). `fuel` bounds the seals. -/
def sealEach (cause : SealCause) : Nat → State → State
  | 0, s => s
  | fuel + 1, s => sealEach cause fuel (sealOldest cause s)

/-- Seal every open frame, oldest first (R175 step 3, R178 step 2). -/
def sealAll (cause : SealCause) (s : State) : State := sealEach cause s.table.openFrames.length s

end Sys2Proof.Machine
end

