-- ==== Sys2Proof/Machine/Attribution.lean ====
section
/-! DEFINITION. The Frame Table's side of a line: slot allocation (R78, R79), opening a frame (R55, R77), attribution
(R69 to R75) and the update of an open-frame record (R80, R81). -/

namespace Sys2Proof.Machine

/-! ## Slot allocation (R78) -/

/-- The slots in the order of the cyclic search: from the slot after the last-allocated one, wrapping from SLOTS − 1
to 0. -/
def searchOrder (slots : Nat) (last : Option (Fin 32)) : List (Fin 32) :=
  let start := match last with | none => 0 | some k => k.val + 1
  (List.range slots).map fun i => Fin.ofNat 32 ((start + i) % slots)

/-- The first FREE slot in the search order (R78). -/
def findFreeSlot (slots : Nat) (t : FrameTable) : Option (Fin 32) :=
  (searchOrder slots t.lastAllocated).find? fun k => decide (t.slots[k] = .free)

/-! ## Opening a frame (R77) -/

/-- The record of a frame that opens (R77 step 3), before its N is computed. -/
def newFrame (b : Boundary) (slot : Option (Fin 32)) : Frame :=
  { number := b.frame, slot := slot, start := b.start, residue := b.residue, rows := 0, fixed := false,
    correction := b.correction, clamped := b.clamped, hi := none, cursors := Vector.replicate 8 (.expects 0),
    passed := 0, delivered := 0, markTaken := false, endSeen := false, firstTime := none, missing := 0, damaged := 0,
    runs := [], overflow := false }

/-- Allocate a slot for a frame that opens, FREE to FILLING, or raise NO_SLOT (R77 steps 2 and 4, R78, R79). -/
def allocateSlot (number : Count) (s : State) : Option (Fin 32) × State :=
  match findFreeSlot s.livePlan.static.slots s.table with
  | some k =>
    let s := setSlot k .filling s
    (some k, { s with table := { s.table with lastAllocated := some k } })
  | none => (none, raise latchNoSlot (.noSlot number) s)

/-- R77 step 1: with four frames open the oldest is sealed FORCED, and the seals that follow from it happen. -/
def forceSeal (s : State) : State :=
  if Config.maxOpen ≤ s.table.openFrames.length then sealWithCascade .fifth s else s

/-- A frame opens with a start handed over by the Registration Unit, the pending correction being 0 (R55, R77). -/
def openFrame (b : Boundary) (s : State) : State :=
  let s := forceSeal (setCorrection 0 s)
  let a := allocateSlot b.frame s
  let s := a.2
  recompute { s with table := { s.table with openFrames := s.table.openFrames ++ [newFrame b a.1] } }

/-! ## Updating the records for an attributed line (R80, R81) -/

/-- A line as it is handed on (R32), with the gaps the lock rules computed for it (R194; 0 where none were). -/
structure Line where
  seq  : Half
  enc  : Count
  pos  : Count
  pix  : Nat
  mark : Bool
  time : Count
  gSeq : Half
  gPos : Count
  deriving DecidableEq, Repr

/-- Steps 1 to 5 of R80 on the record of the line's frame. -/
def Frame.deliver (p : StaticPlan) (n : Lane) (q : Nat) (time : Count) (f : Frame) : Frame :=
  let f := f.recordUpTo n q
  let row := q / p.phases
  { f with
    cursors := f.cursors.set n (.expects (q + 1))
    hi := match f.hi with | none => some row | some h => some (max h row)
    delivered := setLaneBit n f.delivered
    firstTime := f.firstTime <|> some time }

/-- Apply `before` to the first i frames of a list and `at_` to the one at index i. -/
def updateAt (before at_ : Frame → Frame) : Nat → List Frame → List Frame
  | _, [] => []
  | 0, f :: rest => at_ f :: rest
  | i + 1, f :: rest => before f :: updateAt before at_ i rest

/-- The end-seen flag of the oldest open frame. -/
def oldestEndSeen (t : FrameTable) : Bool :=
  match t.openFrames with
  | [] => false
  | f :: _ => f.endSeen

/-- The seal timer is loaded when the oldest open frame's end-seen flag has just been set (R112). -/
def timerOnEndSeen (before : Bool) (s : State) : State :=
  if before then s else if oldestEndSeen s.table then loadSealTimer s else s

/-- Whether a row is above the highest so far (R80 step 3). -/
def raisesHi (row : Nat) : Option Nat → Bool
  | none => true
  | some h => decide (h < row)

/-- Steps 1 to 6 of R80 for a line of lane n at relative position q of the i-th open frame: its record, the cursors of
the older frames (R81), the provisional N (R54), and the seal timer (R112). -/
def placeLine (n : Lane) (i q : Nat) (time : Count) (s : State) : State :=
  let p := s.livePlan.static
  let seen := oldestEndSeen s.table
  let rises := (s.table.openFrames[i]?).any fun f => raisesHi (q / p.phases) f.hi
  let newest := decide (i + 1 = s.table.openFrames.length)
  let s := { s with table := { s.table with
      openFrames := updateAt (Frame.passBy p n) (Frame.deliver p n q time) i s.table.openFrames } }
  timerOnEndSeen seen (if rises && newest then recompute s else s)

/-! ## Attribution (R69 to R75) -/

/-- The answers of attribution (R33): placed in a frame (with its index among the open frames), dropped without a latch
(`quiet`: as pre-origin; `beyond`: beyond the end of frame 0 in SINGLE mode), dropped as LATE, or far ahead. -/
inductive Answer where
  | placed (index : Nat) (frame : Count) (q : Nat)
  | quiet
  | beyond
  | late
  | farAhead
  deriving DecidableEq, Repr

/-- The open extent E (R69). -/
def openExtent (p : StaticPlan) (fs : List Frame) : Nat := (fs.map (Frame.extent p)).sum

/-- The open frame that holds distance d from the oldest frame's start: its index and the relative position (R71). -/
def locate (p : StaticPlan) : List Frame → Nat → Option (Nat × Nat)
  | [], _ => none
  | f :: rest, d =>
    if d < f.extent p then some (0, d)
    else (locate p rest (d - f.extent p)).map fun r => (r.1 + 1, r.2)

/-- The cursor check of R71, and the placing of the line. -/
def placeInOpen (n : Lane) (i q : Nat) (time : Count) (s : State) : Answer × State :=
  match s.table.openFrames[i]? with
  | none => (.quiet, s)
  | some f =>
    match f.cursors[n] with
    | .closed => (.late, s)
    | .expects c => if q < c then (.late, s) else (.placed i f.number q, placeLine n i q time s)

/-- R72: the next frame opens for the line, at relative position q of it. -/
def openAndPlace (n : Lane) (b : Boundary) (q : Nat) (time : Count) (s : State) : Answer × State :=
  let s := openFrame b (fixNewest s)
  let i := s.table.openFrames.length - 1
  (.placed i b.frame q, placeLine n i q time s)

/-- The base count: the start of the oldest open frame, or of the next boundary while no frame is open (R69). -/
def baseCount (b : Boundary) : List Frame → Count
  | [] => b.start
  | f :: _ => f.start

/-- The answer to a line behind the open frames: pre-origin while frame 0 is the oldest of them, else LATE (R70). DESIGN CHOICE
(log 29): the test is the frame number 0 alone, as R70 words it, also for the frame that carries 0 after 2^32 frames. -/
def behindAnswer : List Frame → Answer
  | [] => .late
  | f :: _ => if f.number = 0 then .quiet else .late

/-- Attribution in CONTINUOUS mode (R69 to R74). -/
def attributeContinuous (n : Lane) (line : Line) (s : State) : Answer × State :=
  let p := s.livePlan.static
  match s.reg.next with
  | none => (.quiet, s)
  | some b =>
    let extent := openExtent p s.table.openFrames
    let d := (line.pos - baseCount b s.table.openFrames).toInt
    if d < 0 then (behindAnswer s.table.openFrames, s)
    else if d < extent then
      match locate p s.table.openFrames d.toNat with
      | none => (.quiet, s)
      | some r => placeInOpen n r.1 r.2 line.time s
    else if d < extent + unopenedRows p b.residue * p.phases then
      openAndPlace n b (d.toNat - extent) line.time s
    else (.farAhead, s)

/-- A line beyond the end of frame 0 in SINGLE mode: N₀ is fixed (R57), the lane's cursor is closed by R81, and
end-seen is set (R75). -/
def passSingle (n : Lane) (s : State) : State :=
  let s := fixNewest s
  let seen := oldestEndSeen s.table
  let p := s.livePlan.static
  timerOnEndSeen seen { s with table := { s.table with
    openFrames := s.table.openFrames.map fun f => { f.passBy p n with endSeen := true } } }

/-- The answer to a line in SINGLE mode is that it lies beyond frame 0 (R75). -/
def beyondSingle (p : StaticPlan) (line : Line) (f : Frame) : Bool :=
  decide ((f.extent p : Int) ≤ (line.pos - f.start).toInt)

/-- Attribution in SINGLE mode, which considers frame 0 alone (R75). -/
def attributeSingle (n : Lane) (line : Line) (s : State) : Answer × State :=
  match s.table.openFrames with
  | [] => (.quiet, s)
  | f :: _ =>
    let d := (line.pos - f.start).toInt
    if d < 0 then (.quiet, s)
    else if beyondSingle s.livePlan.static line f then (.beyond, passSingle n s)
    else placeInOpen n 0 d.toNat line.time s

/-- Attribution of an accepted line (R69, R75). -/
def attributeLine (n : Lane) (line : Line) (s : State) : Answer × State :=
  match s.capture.mode with
  | .continuous => attributeContinuous n line s
  | .single => attributeSingle n line s

/-- Setting the origin (R49, R174): the origin is recorded, frame 0 opens, the device goes RUNNING, the ORIGIN notice is
handed over, and the establishing line is attributed to frame 0 at its relative position. In MARK origin mode it sets
frame 0's mark-taken flag. -/
def setOrigin (n : Lane) (line : Line) (q residue : Nat) (s : State) : State :=
  let origin := line.pos - BitVec.ofNat 32 q
  let s := openFrame (originBoundary origin residue) { s with reg := { s.reg with origin := some origin } }
  let s := handNotice .running .origin { s with capture := { s.capture with device := .running } }
  let s := placeLine n 0 q line.time s
  match s.reg.mode with
  | .free => s
  | .mark => onFrame 0 (fun f => { f with markTaken := true }) s

end Sys2Proof.Machine
end

