-- ==== Sys2Proof/Machine/Steering.lean ====
section
/-! DEFINITION. Steering pixel data (spec/05): the placement of a line (R96), destination writes (R98, R99), padding
(R101, R102), sink writes (R10), and a burst in place (R23). -/

namespace Sys2Proof.Machine

/-- The plane and the row address that a position of a frame with a slot fills, when its phase has a plane and its row
is kept there (R95, R96, R130). -/
def filledRow (p : StaticPlan) (slot q : Nat) : Option (Fin 4 × Nat) :=
  match p.planeOfPhase (q % p.phases) with
  | none => none
  | some plane =>
    let mask := p.planes[plane].keepMask
    let row := q / p.phases
    if rowKept mask row then some (plane, p.rowAddress plane slot (keptRows mask row)) else none

/-- The placement of a line at relative position q of a frame with this slot (R96). -/
def placementOf (p : StaticPlan) (slot : Option (Fin 32)) (q : Nat) : Placement :=
  match slot with
  | none => .none
  | some k =>
    match filledRow p k.val q with
    | none => .none
    | some (plane, row) => .write plane row

/-- The first pixel byte index of a lane's crop (R98). -/
def cropStart (p : StaticPlan) (n : Lane) : Nat := p.lanes[n].cropFirst * p.pixelBytes

/-- The pixel byte index just past a lane's crop (R98). -/
def cropEnd (p : StaticPlan) (n : Lane) : Nat := (p.lanes[n].cropFirst + p.lanes[n].keep) * p.pixelBytes

/-- The destination write for line bytes `bytes` that begin at pixel byte index b1, in a row (R99). -/
def destinationWrite (p : StaticPlan) (n : Lane) (row b1 : Nat) (bytes : List Byte) : Option MemRequest :=
  let s1 := max b1 (cropStart p n)
  let s2 := min (b1 + bytes.length) (cropEnd p n)
  if s1 < s2 then
    some (.write (row + p.lanes[n].xOffset + (s1 - cropStart p n)) 0 ((bytes.drop (s1 - b1)).take (s2 - s1)))
  else none

/-- The first padded pixel x0 (R101). -/
def padFrom (p : StaticPlan) (n : Lane) (pix : Nat) : Nat := max pix p.lanes[n].cropFirst

/-- The padding writes of a complete line of `pix` pixels (R101, R102); none when the line fills its crop. -/
def linePadding (p : StaticPlan) (n : Lane) (plane : Fin 4) (row pix : Nat) : List MemRequest :=
  let e := p.lanes[n]
  let x0 := padFrom p n pix
  paddingWrites p.pixelBytes p.planes[plane].fill (row + e.xOffset + (x0 - e.cropFirst) * p.pixelBytes)
    ((e.cropFirst + e.keep - x0) * p.pixelBytes)

/-- The sink write of sunk bytes that begin at a fabric address, when SINK_ENABLE is set (R10). -/
def sinkWrite (p : StaticPlan) (addr : Nat) (bytes : List Byte) : List Derived :=
  if p.sinkEnable && !bytes.isEmpty then
    [{ kind := .sink, req := .write (p.sinkPage + addr % Config.pageBytes) 0 bytes }]
  else []

/-- The window offset of the slot's pixel byte 0. -/
def pixelOrigin (p : StaticPlan) (n : Lane) (line : LineExtent) : Nat :=
  line.slot * p.lanes[n].winStride + Config.tagBytes

/-- The number of line bytes of a burst in place: those before the line end (R23). -/
def lineBytes (line : LineExtent) (len : Nat) : Nat := min len (line.lineEnd - line.expected)

/-- The current line after `k` line bytes (R23). -/
def LineExtent.advance (k : Nat) (line : LineExtent) : LineExtent := { line with expected := line.expected + k }

/-- The line has received its last byte (R23). -/
def LineExtent.done (line : LineExtent) : Bool := decide (line.lineEnd ≤ line.expected)

/-- The derived writes of a burst in place for a TAKING line: its destination write, then the line's padding when the
burst brings its last byte (R11, R99, R101). -/
def takingWrites (p : StaticPlan) (n : Lane) (line : LineExtent) (frame : Count) (pl : Placement) (bytes : List Byte) :
    List Derived :=
  match pl with
  | .none => []
  | .write plane row =>
    let origin := pixelOrigin p n line
    let k := lineBytes line bytes.length
    let dest := (destinationWrite p n row (line.expected - origin) (bytes.take k)).toList
    let pad :=
      if (line.advance k).done then linePadding p n plane row ((line.lineEnd - origin) / p.pixelBytes) else []
    (dest ++ pad).map fun r => { kind := .steer frame, req := r }

/-- The context after a burst in place: COMPLETE when the line has its last byte, else the same with the expected offset
advanced; a placement is discarded with the line (R23, R96). -/
def contextAfterBurst (len : Nat) : LineContext → LineContext
  | .taking line frame q pl =>
    let line' := line.advance (lineBytes line len)
    if line'.done then .complete line' else .taking line' frame q pl
  | .discarding line =>
    let line' := line.advance (lineBytes line len)
    if line'.done then .complete line' else .discarding line'
  | c => c

/-- The derived writes of a burst in place (R23, R99): only a TAKING line has any. -/
def writesOfBurst (p : StaticPlan) (n : Lane) (bytes : List Byte) : LineContext → List Derived
  | .taking line frame _ pl => takingWrites p n line frame pl bytes
  | _ => []

/-- Deal with a burst's bytes that are in place in the lane's current line (R22 step 7, R23). -/
def burstInPlace (n : Lane) (bytes : List Byte) (s : State) : State × List Derived :=
  let c := s.lanes[n].context
  (setContext n (contextAfterBurst bytes.length c) s, writesOfBurst s.livePlan.static n bytes c)

end Sys2Proof.Machine
end

