-- ==== Sys2Proof/Machine/LineTracking.lean ====
section
/-! DEFINITION. The Lane Tracker (spec/02): requester check (R20), injection (R38, R39), lock rules (R26 to R31), line
starts (R22) and continuations (R23 to R25). Each handler answers the state and the derived requests (R11). -/

namespace Sys2Proof.Machine

/-! ## Requester check (R20) -/

/-- Some used alias entry pairs the requester tag with the lane (R20). -/
def requesterPasses (p : StaticPlan) (n : Lane) (tag : Byte) : Bool :=
  p.aliases.toList.any fun a => decide (a.reqTag ≠ 0) && decide (a.reqTag = tag.toNat) && decide (a.lane = n.val)

/-- A rejected burst: TAG_REJECT is raised and its bytes are sunk (R20, R39). -/
def rejectBurst (n : Lane) (addr off : Nat) (tag : Byte) (bytes : List Byte) (s : State) : State × List Derived :=
  (raise (laneLatch n .tagReject) (.tagReject tag off) s, sinkWrite s.livePlan.static addr bytes)

/-! ## Lock rules (R26 to R31) -/

/-- g_seq of R26. -/
def gapSeq (l : LaneTracker) (seq : Half) : Half := seq - l.lastSeq - 1

/-- g_pos of R26. -/
def gapPos (l : LaneTracker) (pos : Count) : Count := pos - l.lastP - 1

/-- This tag becomes the last tag (R31). -/
def LaneTracker.withTag (seq : Half) (pos : Count) (l : LaneTracker) : LaneTracker :=
  { l with tagKnown := true, lastSeq := seq, lastP := pos }

/-- What a lock rule gives: the lane, whether the line is accepted, the gaps computed for it (R194), and the latch it
raises. -/
structure LockResult where
  lane     : LaneTracker
  accepted : Bool
  gSeq     : Half
  gPos     : Count
  raised   : Option (LaneLatch × LatchDetail)
  deriving DecidableEq, Repr

/-- A lock of `count` lines begins with this line (R28, and case 3 of R30): LOCKED and accepted when one line is enough,
else LOCKING with progress 1 and dropped. -/
def beginLock (count : Nat) (l : LaneTracker) : LaneTracker × Bool :=
  if count = 1 then ({ l with state := .locked, progress := 0 }, true)
  else ({ l with state := .locking, progress := 1 }, false)

/-- R28: SEEKING. -/
def lockSeeking (e : LaneEntry) (seq : Half) (pos : Count) (l : LaneTracker) : LockResult :=
  let r := beginLock e.lockCount (l.withTag seq pos)
  { lane := r.1, accepted := r.2, gSeq := 0, gPos := 0, raised := none }

/-- R29: LOCKING. -/
def lockLocking (e : LaneEntry) (seq : Half) (pos : Count) (l : LaneTracker) : LockResult :=
  let t := l.withTag seq pos
  if gapSeq l seq = 0 ∧ gapPos l pos = 0 then
    if l.progress + 1 = e.lockCount then
      { lane := { t with state := .locked, progress := 0 }, accepted := true, gSeq := 0, gPos := 0, raised := none }
    else { lane := { t with progress := l.progress + 1 }, accepted := false, gSeq := 0, gPos := 0, raised := none }
  else { lane := { t with progress := 1 }, accepted := false, gSeq := 0, gPos := 0, raised := none }

/-- R30: LOCKED. -/
def lockLocked (e : LaneEntry) (seq : Half) (pos : Count) (l : LaneTracker) : LockResult :=
  let gs := gapSeq l seq
  let gp := gapPos l pos
  if 32768 ≤ gs.toNat then
    { lane := l, accepted := false, gSeq := gs, gPos := gp, raised := some (.duplicate, .duplicate seq l.lastSeq) }
  else if gs.toNat = gp.toNat ∧ gs.toNat ≤ e.gapLimit then
    { lane := l.withTag seq pos, accepted := true, gSeq := gs, gPos := gp,
      raised := if gs = 0 then none else some (.seqGap, .seqGap seq gs) }
  else
    let r := beginLock e.lockCount (l.withTag seq pos)
    { lane := r.1, accepted := r.2, gSeq := gs, gPos := gp, raised := some (.lockLost, .lockLost .gap seq pos gs gp) }

/-- The lock rule of the lane's state (R27). An OFF lane's tag reaches no rule: its bursts are dropped before. -/
def lockRule (e : LaneEntry) (seq : Half) (pos : Count) (l : LaneTracker) : LockResult :=
  match l.state with
  | .off => { lane := l, accepted := false, gSeq := 0, gPos := 0, raised := none }
  | .seeking => lockSeeking e seq pos l
  | .locking => lockLocking e seq pos l
  | .locked => lockLocked e seq pos l

/-- The far-ahead answer on a lane (R33): LOCKING with progress 1, or SEEKING with the last tag unknown when one line
is a lock. The line context is DISCARDING by R33 in both cases (log 12). -/
def LaneTracker.lockLostAhead (e : LaneEntry) (l : LaneTracker) : LaneTracker :=
  if e.lockCount = 1 then { l with state := .seeking, progress := 0, tagKnown := false, lastSeq := 0, lastP := 0 }
  else { l with state := .locking, progress := 1 }

/-! ## Injection (R38, R39) -/

/-- The countdown of a pending injection at a line start: the kind that fires, if it reaches 0, and what stays pending. -/
def countDown : Option Injection → Option InjectionKind × Option Injection
  | none => (none, none)
  | some i => if i.countdown ≤ 1 then (some i.kind, none) else (none, some { i with countdown := i.countdown - 1 })

/-- The tag as an injection that fires on it leaves it (R39). -/
def injectTag (p : StaticPlan) (fired : Option InjectionKind) (t : LineTag) : LineTag :=
  match fired with
  | some .seqSkip => { t with seq := t.seq + 1 }
  | some .encShift => { t with enc := t.enc + BitVec.ofNat 32 p.phases }
  | some .mark => { t with mark := true }
  | _ => t

/-! ## Handing a line on (R32, R33) -/

/-- The slot of a frame, by number. -/
def State.slotOf (s : State) (frame : Count) : Option (Fin 32) :=
  match s.frameOf frame with
  | none => none
  | some f => f.slot

/-- A line placed in a frame is TAKING with its placement (R33, R96). -/
def takeLine (n : Lane) (x : LineExtent) (frame : Count) (q : Nat) (s : State) : State :=
  setContext n (.taking x frame q (placementOf s.livePlan.static (s.slotOf frame) q)) s

/-- An accepted line in RUNNING (R33, R59, R110): attribution, the context, the seal test where a quantity it reads may
have changed, and the mark evaluation. -/
def runLine (n : Lane) (line : Line) (x : LineExtent) (s : State) : State :=
  let r := attributeLine n line s
  let s := r.2
  let p := s.livePlan.static
  match r.1 with
  | .placed i frame q =>
    let s := takeLine n x frame q s
    let s := if i = 0 then s else evalSealTest s
    evaluateMark n line.mark frame (q / p.phases) s
  | .quiet => setContext n (.discarding x) s
  | .beyond => evalSealTest (setContext n (.discarding x) s)
  | .late => raise (laneLatch n .late) (.late line.seq line.pos) (setContext n (.discarding x) s)
  | .farAhead =>
    let s := raise (laneLatch n .lockLost) (.lockLost .ahead line.seq line.pos line.gSeq line.gPos) s
    let s := onLane n (LaneTracker.lockLostAhead p.lanes[n]) s
    evalSealTest (setContext n (.discarding x) s)

/-- An accepted line in ARMED (R32, R45 to R49): a candidate origin. -/
def armLine (n : Lane) (line : Line) (x : LineExtent) (s : State) : State :=
  match candidate s.livePlan s.reg.mode n line.enc line.mark with
  | none => setContext n (.discarding x) s
  | some (q, residue) =>
    let s := takeLine n x 0 q (setOrigin n line q residue s)
    match s.reg.mode with
    | .free => evaluateMark n line.mark 0 (q / s.livePlan.static.phases) s
    | .mark => s

/-- An accepted line is handed on by the device state (R32). In the other states every lane is OFF and no line is
accepted. -/
def handOn (n : Lane) (line : Line) (x : LineExtent) (s : State) : State :=
  match s.capture.device with
  | .armed => armLine n line x s
  | .running => runLine n line x s
  | .dormant => setContext n (.discarding x) s
  | .stopped => setContext n (.discarding x) s
  | .draining => setContext n (.discarding x) s

/-! ## Line starts (R22) -/

/-- Raise the latch of a lock rule, if it raises one. -/
def raiseLock (n : Lane) (r : LockResult) (s : State) : State :=
  match r.raised with
  | none => s
  | some (k, d) => raise (laneLatch n k) d s

/-- Steps 5 and 6 of R22 for a well-formed tag: the lock rule, and handing an accepted line on. A lane that leaves LOCKED
has the seal test evaluated (R110). -/
def lockAndPlace (n : Lane) (t : LineTag) (x : LineExtent) (s : State) : State :=
  let e := s.livePlan.static.lanes[n]
  let pos := t.enc - e.delay
  let l := s.lanes[n]
  let r := lockRule e t.seq pos l
  let s := raiseLock n r (onLane n (fun _ => r.lane) s)
  if r.accepted then
    handOn n { seq := t.seq, enc := t.enc, pos := pos, pix := t.pix, mark := t.mark, time := t.time, gSeq := r.gSeq,
               gPos := r.gPos } x s
  else
    let s := setContext n (.discarding x) s
    if l.state = .locked ∧ r.lane.state ≠ .locked then evalSealTest s else s

/-- A malformed burst: MALFORMED is raised with its cause code, the context becomes SINKING and the bytes are sunk
(R19, R24). -/
def malformedBurst (n : Lane) (addr off code slot : Nat) (bytes : List Byte) (s : State) : State × List Derived :=
  (setContext n (.sinking slot) (raise (laneLatch n .malformed) (.malformed code off) s),
   sinkWrite s.livePlan.static addr bytes)

/-- Steps 2 to 7 of R22. -/
def beginLine (n : Lane) (addr off : Nat) (fired : Option InjectionKind) (bytes : List Byte) (s : State) :
    State × List Derived :=
  let p := s.livePlan.static
  let e := p.lanes[n]
  let slot := off / e.winStride
  let s := onLane n (fun l => { l with setAside := none, context := .none }) (cutLine n s)
  match tagFault p.pixelBytes e.winStride bytes with
  | some code => malformedBurst n addr off code slot bytes s
  | none =>
    let t := injectTag p fired (readTag bytes)
    let x : LineExtent :=
      { slot := slot, expected := off + Config.tagBytes, lineEnd := off + Config.tagBytes + t.pix * p.pixelBytes }
    burstInPlace n (bytes.drop Config.tagBytes) (lockAndPlace n t x s)

/-- A line start that passes the requester check (R22). Step 1: an injection that fires with DROP or TAG_FAULT sets the
line start aside (R39). -/
def startLine (n : Lane) (addr off : Nat) (tag : Byte) (bytes : List Byte) (s : State) : State × List Derived :=
  let slot := off / s.livePlan.static.lanes[n].winStride
  let c := countDown s.lanes[n].injection
  let s := onLane n (fun l => { l with injection := c.2 }) s
  match c.1 with
  | some .drop => (onLane n (fun l => { l with setAside := some { slot := slot, mode := .absorb } }) s, [])
  | some .tagFault =>
    rejectBurst n addr off tag bytes (onLane n (fun l => { l with setAside := some { slot := slot, mode := .reject } }) s)
  | fired => beginLine n addr off fired bytes s

/-! ## Continuations (R23 to R25) -/

/-- A continuation fault (R24): MALFORMED, a TAKING line is cut, the context becomes SINKING and the bytes are sunk. -/
def continuationFault (n : Lane) (addr off code slot : Nat) (bytes : List Byte) (s : State) : State × List Derived :=
  malformedBurst n addr off code slot bytes (cutLine n s)

/-- A continuation that meets the current line context (R23 to R25). -/
def continueLine (n : Lane) (addr off : Nat) (bytes : List Byte) (s : State) : State × List Derived :=
  let slot := off / s.livePlan.static.lanes[n].winStride
  let inLine (x : LineExtent) : State × List Derived :=
    if slot ≠ x.slot then continuationFault n addr off 8 slot bytes s
    else if off ≠ x.expected then continuationFault n addr off 7 slot bytes s
    else burstInPlace n bytes s
  match s.lanes[n].context with
  | .none => continuationFault n addr off 8 slot bytes s
  | .taking x _ _ _ => inLine x
  | .discarding x => inLine x
  | .complete x =>
    if slot ≠ x.slot then continuationFault n addr off 8 slot bytes s
    else if off < x.lineEnd then continuationFault n addr off 7 slot bytes s
    else (s, [])
  | .sinking _ => (s, sinkWrite s.livePlan.static addr bytes)

/-- A continuation that passes the requester check: the set-aside slot takes precedence over the current line context
(R25, R39). -/
def continueBurst (n : Lane) (addr off : Nat) (tag : Byte) (bytes : List Byte) (s : State) : State × List Derived :=
  let slot := off / s.livePlan.static.lanes[n].winStride
  match s.lanes[n].setAside with
  | none => continueLine n addr off bytes s
  | some a =>
    if a.slot = slot then
      match a.mode with
      | .reject => rejectBurst n addr off tag bytes s
      | .absorb => (s, [])
    else continueLine n addr off bytes s

/-! ## A landing burst (R8, R17, R20) -/

/-- A burst whose window offset is a multiple of WIN_STRIDE is a line start (R17). -/
def isLineStart (e : LaneEntry) (off : Nat) : Bool := decide (off % e.winStride = 0)

/-- A LANDING write at Lane Tracker n: its window offset, requester tag and data (R8). Bytes past the window end are
dropped; an OFF lane drops every byte (R27). -/
def landingBurst (n : Lane) (addr off : Nat) (tag : Byte) (data : List Byte) (s : State) : State × List Derived :=
  let p := s.livePlan.static
  let e := p.lanes[n]
  let bytes := data.take (e.winBytes - off)
  if s.lanes[n].state = .off then (s, [])
  else if requesterPasses p n tag then
    if isLineStart e off then startLine n addr off tag bytes s else continueBurst n addr off tag bytes s
  else rejectBurst n addr off tag bytes s

end Sys2Proof.Machine
end

