-- ==== Sys2Proof/Machine/Patch.lean ====
section
/-! DEFINITION. The Patch Engine (spec/07): what a position fills (R130), fill writes (R131), taking up a frame (R129),
advancing (R132), finishing (R133), abandonment (R135), and the completion of a drain (R176). -/

namespace Sys2Proof.Machine

/-- The plane and the segment start that a position of a lane's run fills, or none when it fills nothing (R130). -/
def fillTarget (p : StaticPlan) (slot : Fin 32) (n : Lane) (q : Nat) : Option (Fin 4 × Nat) :=
  (filledRow p slot.val q).map fun r => (r.1, r.2 + p.lanes[n].xOffset)

/-- The fill write of a segment at a byte offset: 256 bytes, or what remains (R131). -/
def fillWrite (p : StaticPlan) (n : Lane) (plane : Fin 4) (segment byteOffset : Nat) : MemRequest :=
  .write (segment + byteOffset) 0
    (fillBytes p.pixelBytes p.planes[plane].fill (min 256 (p.lanes[n].segmentBytes p.pixelBytes - byteOffset)))

/-- The first position index from `i` on, among `fuel` of them, that fills something (R132 step 3). -/
def nextInRun (p : StaticPlan) (slot : Fin 32) (r : Run) : Nat → Nat → Option (Nat × (Fin 4 × Nat))
  | 0, _ => none
  | fuel + 1, i =>
    match fillTarget p slot r.lane (r.first + i) with
    | some t => some (i, t)
    | none => nextInRun p slot r fuel (i + 1)

/-- The context at the first position that fills something, from the first position of the runs on; `index` is the run
index of the first of them (R132 steps 2 and 3). -/
def nextInRuns (p : StaticPlan) (slot : Fin 32) : Nat → List Run → Option PatchWork
  | _, [] => none
  | index, r :: rest =>
    match nextInRun p slot r r.count 0 with
    | some (i, plane, segment) =>
      some { slot := slot, runIndex := index, posIndex := i, plane := plane, byteOffset := 0,
             waiting := some (fillWrite p r.lane plane segment 0) }
    | none => nextInRuns p slot (index + 1) rest

/-- The context after the waiting write is taken, over a patch list; none when the frame is finished (R132). -/
def advanceWork (p : StaticPlan) (runs : List Run) (w : PatchWork) : Option PatchWork :=
  match runs[w.runIndex]? with
  | none => none
  | some r =>
    let offset := w.byteOffset + 256
    match fillTarget p w.slot r.lane (r.first + w.posIndex) with
    | some (plane, segment) =>
      if offset < p.lanes[r.lane].segmentBytes p.pixelBytes then
        some { w with byteOffset := offset, waiting := some (fillWrite p r.lane plane segment offset) }
      else
        match nextInRun p w.slot r (r.count - (w.posIndex + 1)) (w.posIndex + 1) with
        | some (i, plane, segment) =>
          some { w with posIndex := i, plane := plane, byteOffset := 0,
                        waiting := some (fillWrite p r.lane plane segment 0) }
        | none => nextInRuns p w.slot (w.runIndex + 1) (runs.drop (w.runIndex + 1))
    | none => none

/-! ## Entries of the seal queue -/

/-- Apply a function to the slot entry of a slot. -/
def onSlotEntry (k : Fin 32) (f : SlotEntry → SlotEntry) : QueueEntry → QueueEntry
  | .slot e => if e.slot = k then .slot (f e) else .slot e
  | .skip e => .skip e

/-- The patch list of a slot's entry (R127). -/
def patchListOf (k : Fin 32) : List QueueEntry → List Run
  | [] => []
  | .slot e :: rest => if e.slot = k then e.patchList.getD [] else patchListOf k rest
  | .skip _ :: rest => patchListOf k rest

/-- The first slot entry, counted from the head, whose slot is PATCHING (R129). -/
def firstPatching (t : FrameTable) : Option SlotEntry :=
  t.queue.findSome? fun
    | .slot e => if t.slots[e.slot] = .patching then some e else none
    | .skip _ => none

/-- A frame's patching completes: FILLED, patch list discarded, slot READY, context IDLE (R133). -/
def finishPatch (k : Fin 32) (s : State) : State :=
  let s := { s with patch := .idle, table := { s.table with
    queue := s.table.queue.map (onSlotEntry k fun e => { e with filled := true, patchList := none }) } }
  setSlot k .ready s

/-- While the context is IDLE, take up the first PATCHING entry; a frame none of whose positions fills anything
completes at once, and the next is taken up (R129, R133). `fuel` bounds the entries. -/
def takeUpEach : Nat → State → State
  | 0, s => s
  | fuel + 1, s =>
    match s.patch with
    | .active _ => s
    | .idle =>
      match firstPatching s.table with
      | none => s
      | some e =>
        match nextInRuns s.livePlan.static e.slot 0 (e.patchList.getD []) with
        | some w => { s with patch := .active w }
        | none => takeUpEach fuel (finishPatch e.slot s)

/-- The engine takes up work, if it is IDLE and there is some (R129). -/
def takeUp (s : State) : State := takeUpEach s.table.queue.length s

/-- The engine advances after the memory port has taken its waiting write (R132, R133). -/
def advancePatch (w : PatchWork) (s : State) : State :=
  match advanceWork s.livePlan.static (patchListOf w.slot s.table.queue) w with
  | some w' => { s with patch := .active w' }
  | none => finishPatch w.slot s

/-- A slot entry whose slot is PATCHING is abandoned: FILL_ABANDONED and no patch list (R135). -/
def abandonEntry (slots : Vector SlotState 32) : QueueEntry → QueueEntry
  | .slot e => if slots[e.slot] = .patching then .slot { e with abandoned := true, patchList := none } else .slot e
  | .skip e => .skip e

/-- A slot whose patching is abandoned: PATCHING goes READY, and every other state stays (R135). -/
def SlotState.abandoned : SlotState → SlotState
  | .patching => .ready
  | .free => .free
  | .filling => .filling
  | .ready => .ready
  | .held => .held

/-- ABORT abandons patching: every PATCHING slot goes READY, its entry FILL_ABANDONED, and the context IDLE with its
waiting write withdrawn (R135). -/
def abandonPatching (s : State) : State :=
  { s with
    patch := .idle
    table := { s.table with
      queue := s.table.queue.map (abandonEntry s.table.slots)
      slots := Vector.ofFn fun k => s.table.slots[k].abandoned } }

/-! ## The completion of a drain (R176) -/

/-- The acknowledge word of a pending STOP is handed over, and STOP is no longer pending (R176 step 3, R160). -/
def answerStop (s : State) : State :=
  match s.plan.pendingCommand with
  | some (.stop tag) => answer tag rDone { s with plan := { s.plan with pendingCommand := none } }
  | _ => s

/-- The drain completes: STOPPED, the state notice, and for drain cause STOP the acknowledge word of STOP (R176). -/
def completeDrain (s : State) : State :=
  let cause := s.capture.drainCause
  let s := { s with capture := { s.capture with device := .stopped, drainCause := .none } }
  match cause with
  | .stop => answerStop (handNotice .stopped .stop s)
  | .singleDone => handNotice .stopped .singleDone s
  | .none => s

/-- The completion test of R176: DRAINING, no frame open, no slot PATCHING. -/
def drainTest (s : State) : State :=
  if s.capture.device = .draining ∧ s.table.openFrames = [] ∧ anyPatching s.table = false then completeDrain s else s

/-- What follows the seals of a step: the Patch Engine takes up work (R129), and the drain may complete (R176). -/
def settle (s : State) : State := drainTest (takeUp s)

end Sys2Proof.Machine
end

