-- ==== Sys2Proof/Machine/Report.lean ====
section
/-! DEFINITION. The Report Unit (spec/08): the bytes of its writes (R189 to R195), and the choice of its next write
(R142, R143). -/

namespace Sys2Proof.Machine

/-! ## Codes (R189, R192, R193, R195) -/

def DeviceState.code : DeviceState → Byte
  | .dormant => 0
  | .stopped => 1
  | .armed => 2
  | .running => 3
  | .draining => 4

def LaneState.code : LaneState → Byte
  | .off => 0
  | .seeking => 1
  | .locking => 2
  | .locked => 3

def SlotState.code : SlotState → Byte
  | .free => 0
  | .filling => 1
  | .patching => 2
  | .ready => 3
  | .held => 4

def InjectionKind.code : InjectionKind → Byte
  | .drop => 1
  | .seqSkip => 2
  | .encShift => 3
  | .mark => 4
  | .tagFault => 5

def CaptureMode.code : CaptureMode → Byte
  | .continuous => 0
  | .single => 1

def OriginMode.code : OriginMode → Byte
  | .free => 0
  | .mark => 1

def FrameStatus.code : FrameStatus → Byte
  | .complete => 1
  | .incomplete => 2
  | .timedOut => 3
  | .forced => 4
  | .flushed => 5
  | .aborted => 6
  | .skipped => 7

def NoticeCause.code : NoticeCause → Byte
  | .origin => 1
  | .stop => 2
  | .singleDone => 3
  | .abort => 4

def LockLossCause.code : LockLossCause → Byte
  | .gap => 1
  | .ahead => 2

/-- A Bool as a byte: 1 or 0. -/
def flagByte (b : Bool) : Byte := if b then 1 else 0

/-- A Bool as bit i of a byte. -/
def flagBit (i : Nat) (b : Bool) : Byte := if b then 1#8 <<< i else 0

/-- `n` bytes of 0 (R191). -/
def zeros (n : Nat) : List Byte := List.replicate n 0

/-- An absent 32-bit value is written 0 (R191). -/
def optCount (o : Option Count) : List Byte := leBytes 4 (o.getD 0).toNat

/-! ## Words and records -/

/-- The four bytes of an acknowledge word (R189). -/
def AckWord.bytes (a : AckWord) : List Byte := [a.tag, a.cls, a.detail, a.device.code]

/-- The latch kind of an ERROR record (R193). -/
def LatchDetail.kindCode : LatchDetail → Byte
  | .tagReject .. => 1
  | .malformed .. => 2
  | .seqGap .. => 3
  | .duplicate .. => 4
  | .lockLost .. => 5
  | .late .. => 6
  | .markWindow .. => 7
  | .markLost .. => 8
  | .noSlot .. => 9
  | .badConsumer .. => 10

/-- The detail bytes 8 to 31 of an ERROR record (R194), before padding to 24 bytes. -/
def LatchDetail.bytes : LatchDetail → List Byte
  | .tagReject tag off => [tag, 0, 0, 0] ++ leBytes 4 off
  | .malformed code off => [BitVec.ofNat 8 code, 0, 0, 0] ++ leBytes 4 off
  | .seqGap seq gap => leBytes 2 seq.toNat ++ leBytes 2 gap.toNat
  | .duplicate seq lastSeq => leBytes 2 seq.toNat ++ leBytes 2 lastSeq.toNat
  | .lockLost cause seq p gSeq gPos =>
    [cause.code, 0] ++ leBytes 2 seq.toNat ++ leBytes 4 p.toNat ++ leBytes 2 gSeq.toNat ++ [0, 0] ++ leBytes 4 gPos.toNat
  | .late seq p => leBytes 2 seq.toNat ++ [0, 0] ++ leBytes 4 p.toNat
  | .markWindow frame lane row error =>
    leBytes 4 frame.toNat ++ [BitVec.ofNat 8 lane.val, 0, 0, 0] ++ leBytes 4 row ++ [0, 0, 0, 0] ++ leInt 8 error
  | .markLost frame count => leBytes 4 frame.toNat ++ [BitVec.ofNat 8 count]
  | .noSlot frame => leBytes 4 frame.toNat
  | .badConsumer value consumer => leBytes 4 value.toNat ++ leBytes 4 consumer.toNat

/-- Pad with zeros to `n` bytes (R191). -/
def padTo (n : Nat) (bs : List Byte) : List Byte := bs ++ zeros (n - bs.length)

/-- The lane of a latch's record: 0..7, or 0xFF for the device latches (R147). -/
def latchLane (k : Fin 52) : Byte := if k.val < 48 then BitVec.ofNat 8 (k.val / 6) else 0xFF

/-- The kind byte and the detail bytes of a latch; an absent detail is written 0. -/
def Latch.detailBytes (l : Latch) : Byte × List Byte :=
  match l.detail with
  | none => (0, zeros 24)
  | some d => (d.kindCode, padTo 24 d.bytes)

/-- The ERROR record of a latch (R193, R194). -/
def errorRecord (k : Fin 52) (l : Latch) : List Byte :=
  [0x02, BitVec.ofNat 8 k.val, latchLane k, l.detailBytes.1] ++ leBytes 2 l.count ++ [0, 0] ++ l.detailBytes.2

/-- The STATE record of a notice (R195). -/
def stateRecord (x : StateNotice) : List Byte :=
  padTo 32 ([0x03, x.device.code, x.cause.code, flagByte x.origin.isSome] ++ leBytes 2 x.generation ++ [0, 0]
    ++ optCount x.origin)

/-- The FRAME record of a slot entry (R124, R192). -/
def slotRecord (e : SlotEntry) : List Byte :=
  [0x01, e.status.code,
    flagBit 0 e.markTaken ||| flagBit 1 e.clamped ||| flagBit 2 e.overflow ||| flagBit 3 e.filled ||| flagBit 4 e.abandoned,
    BitVec.ofNat 8 e.slot.val]
    ++ leBytes 4 e.number.toNat ++ leBytes 2 e.rows ++ [0, 0] ++ leBytes 4 e.missing ++ leBytes 2 e.damaged
    ++ [e.delivered, 0] ++ leBytes 4 e.start.toNat ++ leInt 4 e.correction ++ optCount e.firstTime

/-- The FRAME record of a skip entry (R125, R192). -/
def skipRecord (e : SkipEntry) : List Byte :=
  [0x01, FrameStatus.skipped.code, flagBit 0 e.markTaken ||| flagBit 1 e.clamped ||| flagBit 2 e.overflow, 0xFF]
    ++ leBytes 4 e.first.toNat ++ leBytes 2 (e.count / 65536) ++ leBytes 2 e.count ++ leBytes 4 e.missing
    ++ leBytes 2 e.damaged ++ [e.delivered, 0] ++ leBytes 4 e.start.toNat ++ leInt 4 e.correction ++ optCount e.firstTime

/-- The FRAME record of a seal-queue entry (R192). -/
def QueueEntry.record : QueueEntry → List Byte
  | .slot e => slotRecord e
  | .skip e => skipRecord e

/-! ## The snapshot block (R167, R190) -/

/-- Injection kind and countdown; 0 and 0 when empty (R190). -/
def injectionBytes : Option Injection → List Byte
  | none => [0, 0]
  | some i => [i.kind.code, BitVec.ofNat 8 i.countdown]

/-- A lane's 16 bytes of the snapshot block (R190). -/
def LaneTracker.snapshotBytes (l : LaneTracker) : List Byte :=
  [l.state.code, BitVec.ofNat 8 l.progress, flagByte l.tagKnown] ++ injectionBytes l.injection ++ [0]
    ++ leBytes 2 l.lastSeq.toNat ++ leBytes 4 l.lastP.toNat ++ zeros 4

/-- The 296 bytes of the snapshot block, from the state as it stands (R166, R167, R190). -/
def snapshotBlock (s : State) : List Byte :=
  [s.capture.device.code, s.capture.mode.code, s.reg.mode.code,
    flagBit 0 s.reg.origin.isSome ||| flagBit 1 (!s.table.openFrames.isEmpty)]
    ++ leBytes 2 s.plan.generation ++ [BitVec.ofNat 8 s.reg.markLost, BitVec.ofNat 8 s.table.queue.length]
    ++ optCount s.reg.origin
    ++ optCount (s.table.openFrames.head?.map Frame.number)
    ++ optCount (s.table.openFrames.getLast?.map Frame.number)
    ++ leInt 4 s.reg.correction ++ leBytes 4 s.report.producer.toNat ++ leBytes 4 s.report.consumer.toNat
    ++ s.lanes.toList.flatMap LaneTracker.snapshotBytes
    ++ s.table.slots.toList.map SlotState.code
    ++ s.report.latches.toList.flatMap fun l => leBytes 2 l.count

/-- The two writes of the snapshot block: 256 bytes at offset 0x100 of the status area, then the other 40 at 0x200
(R168, R191). -/
def snapshotWritesOf (s : State) : List (Nat × List Byte) :=
  let block := snapshotBlock s
  [(s.statusBase + 0x100, block.take 256), (s.statusBase + 0x200, block.drop 256)]

/-! ## The choice of the next write (R142, R143) -/

/-- The address of the ring entry for the next record (R138). -/
def ringEntry (p : StaticPlan) (producer : Count) : Nat :=
  p.ringBase + Config.recordBytes * (producer.toNat % p.ringEntries)

/-- At least one ring entry is free (R138). -/
def ringHasRoom (s : State) : Bool :=
  match s.plan.live with
  | none => false
  | some p => decide (s.report.unconsumed < p.static.ringEntries)

/-- The seal-queue head when it is offered: a skip entry, or a slot entry whose slot is READY (R122). -/
def offeredHead (t : FrameTable) : Option QueueEntry :=
  match t.queue with
  | [] => none
  | .skip e :: _ => some (.skip e)
  | .slot e :: _ => if t.slots[e.slot] = .ready then some (.slot e) else none

/-- A write becomes the presented one. -/
def presentWrite (kind : ReportKind) (addr : Nat) (data : List Byte) (s : State) : State :=
  { s with report := { s.report with presented := some { kind := kind, addr := addr, data := data } } }

/-- Present a record at the next ring entry (R139). -/
def presentRecord (k : RecordKind) (data : List Byte) (s : State) : State :=
  presentWrite (.record k) (ringEntry s.livePlan.static s.report.producer) data s

/-- Present the state notice (R150). -/
def presentNotice (x : StateNotice) (s : State) : State :=
  presentRecord .state (stateRecord x) { s with report := { s.report with noticePresented := true } }

/-- Present the notice of a latch (R147). -/
def presentError (k : Fin 52) (s : State) : State :=
  presentRecord (.error k false) (errorRecord k s.report.latches[k])
    { s with report := s.report.onLatch k fun l => { l with presented := true } }

/-- The choice among records (R143): the state notice, the lowest latch whose notice is due, the offered head. -/
def chooseRecord (s : State) : State :=
  match s.report.stateNotice with
  | some x => presentNotice x s
  | none =>
    match s.report.lowestDue with
    | some k => presentError k s
    | none =>
      match offeredHead s.table with
      | some e => presentRecord .frame e.record s
      | none => s

/-- The choice of R142 among what waits: producer word, acknowledge word, snapshot write, record. -/
def chooseWrite (s : State) : State :=
  if s.report.producerOwed then
    presentWrite .producerWord (s.statusBase + 4) (leBytes 4 s.report.producer.toNat)
      { s with report := { s.report with producerOwed := false } }
  else
    match s.report.ackWaiting with
    | some a => presentWrite .ackWord s.statusBase a.bytes { s with report := { s.report with ackWaiting := none } }
    | none =>
      match s.report.snapshotWrites with
      | (addr, data) :: rest =>
        presentWrite .snapshotWrite addr data { s with report := { s.report with snapshotWrites := rest } }
      | [] => if ringHasRoom s then chooseRecord s else s

/-- The Report Unit chooses whenever it has no write presented (R142); the model lets it choose at the end of a step
(log 7). -/
def present (s : State) : State := if s.report.presented.isSome then s else chooseWrite s

end Sys2Proof.Machine
end

