-- ==== Sys2Proof/Machine/Commands.lean ====
section
/-! DEFINITION. The commands of the mailbox (spec/09, spec/10): the busy test and the state test of R158 and R160, and the
effect of each command. A command answers its result word, or none when it is answered later (STOP, SNAPSHOT). -/

namespace Sys2Proof.Machine

/-! ## Busy (R158, R160, R121) -/

/-- The tail entry of the seal queue is a skip entry (R121). -/
def tailIsSkip (t : FrameTable) : Bool :=
  match t.queue.getLast? with
  | some (.skip _) => true
  | _ => false

/-- The commands barred while STOP or SNAPSHOT is pending (R160). -/
def barredWhilePending : MailCommand → Bool
  | .start => true
  | .stop => true
  | .abort => true
  | .commit => true
  | .snapshot => true
  | .flush => false
  | .release => false
  | .clearErrors => false
  | .inject => false

/-- Test 2 of R158: a barred command while one is pending, or a START behind a tail skip entry. -/
def busy (c : MailCommand) (s : State) : Bool :=
  (barredWhilePending c && s.plan.pendingCommand.isSome) || (decide (c = .start) && tailIsSkip s.table)

/-- The states in which a command is taken (R171, R162, R88, R37): false gives BAD_STATE. -/
def stateAllows : MailCommand → DeviceState → DrainCause → Bool
  | .commit, .draining, _ => false
  | .commit, _, _ => true
  | .start, d, _ => decide (d = .stopped)
  | .stop, .dormant, _ => false
  | .stop, .draining, _ => false
  | .stop, _, _ => true
  | .abort, .dormant, _ => false
  | .abort, .draining, c => decide (c = .singleDone)
  | .abort, _, _ => true
  | .flush, d, _ => decide (d ≠ .dormant)
  | .inject, d, _ => decide (d ≠ .dormant)
  | .release, _, _ => true
  | .snapshot, _, _ => true
  | .clearErrors, _, _ => true

/-! ## START (R172, R173) -/

/-- A Lane Tracker at START (R40, R173). -/
def LaneTracker.atStart (enabled : Bool) (_l : LaneTracker) : LaneTracker :=
  { LaneTracker.atReset with state := if enabled then .seeking else .off }

/-- A START that is taken (R173). -/
def beginCapture (mode : CaptureMode) (origin : OriginMode) (s : State) : State :=
  { s with
    capture := { s.capture with device := .armed, mode := mode }
    reg := { origin := none, mode := origin, next := none, correction := 0, markLost := 0 }
    table := { s.table with lastAllocated := none, sealTimer := .idle }
    lanes := Vector.ofFn fun n => s.lanes[n].atStart (s.livePlan.enabled n) }

/-- The modes a START names (R172); none when an argument is out of range. -/
def startModes (arg0 arg1 : Count) : Option (CaptureMode × OriginMode) :=
  match arg0.toNat, arg1.toNat with
  | 0, 0 => some (.continuous, .free)
  | 0, 1 => some (.continuous, .mark)
  | 1, 0 => some (.single, .free)
  | 1, 1 => some (.single, .mark)
  | _, _ => none

def doStart (arg0 arg1 : Count) (s : State) : State × Option ResultWord :=
  match startModes arg0 arg1 with
  | none => (s, some rBadArgument)
  | some (mode, origin) => (beginCapture mode origin s, some rDone)

/-! ## STOP (R175) -/

/-- A STOP that is taken in ARMED or RUNNING (R175): DRAINING, lanes OFF, every open frame sealed FLUSHED, and the
completion test. -/
def beginDrain (tag : Byte) (s : State) : State :=
  let s := { s with
    capture := { s.capture with device := .draining, drainCause := .stop }
    plan := { s.plan with pendingCommand := some (.stop tag) } }
  settle (sealAll .flush (lanesOff s))

/-- STOP: in STOPPED there is nothing to do (R171); otherwise it is answered when the drain completes. -/
def doStop (tag : Byte) (s : State) : State × Option ResultWord :=
  if s.capture.device = .stopped then (s, some rNothing) else (beginDrain tag s, none)

/-! ## ABORT (R178) -/

/-- Every injection is emptied (R40, R178). -/
def emptyInjections (s : State) : State :=
  { s with lanes := Vector.ofFn fun n => { s.lanes[n] with injection := none } }

/-- Whether some lane's injection is pending. -/
def anyInjection (s : State) : Bool := allLanes.any fun n => s.lanes[n].injection.isSome

/-- An ABORT that is taken in ARMED, RUNNING or the drain of a single capture (R178 steps 1 to 5, without the answer). -/
def abortCapture (s : State) : State :=
  let s := abandonPatching (sealAll .abort (emptyInjections (lanesOff s)))
  handNotice .stopped .abort { s with capture := { s.capture with device := .stopped, drainCause := .none } }

def doAbort (s : State) : State × Option ResultWord :=
  if s.capture.device = .stopped then
    (emptyInjections s, some (if anyInjection s then rDone else rNothing))
  else (abortCapture s, some rDone)

/-! ## FLUSH (R88) -/

def doFlush (s : State) : State × Option ResultWord :=
  if s.table.openFrames = [] then (s, some rNothing) else (settle (sealWithCascade .flush s), some rDone)

/-! ## RELEASE (R86) -/

def doRelease (arg0 : Count) (s : State) : State × Option ResultWord :=
  if h : arg0.toNat < 32 then
    let k : Fin 32 := ⟨arg0.toNat, h⟩
    if s.table.slots[k] = .held then (setSlot k .free s, some rDone) else (s, some rBadSlot)
  else (s, some rBadArgument)

/-! ## SNAPSHOT (R166) -/

/-- SNAPSHOT captures the values and zeroes the latch counts; it is answered after its last write (R168). -/
def doSnapshot (tag : Byte) (s : State) : State × Option ResultWord :=
  ({ s with
     report := { s.report.zeroCounts with snapshotWrites := snapshotWritesOf s }
     plan := { s.plan with pendingCommand := some (.snapshot tag) } }, none)

/-! ## CLEAR_ERRORS (R148) -/

def doClearErrors (s : State) : State × Option ResultWord :=
  if s.report.anyRaised then ({ s with report := s.report.clearErrors }, some rDone) else (s, some rNothing)

/-! ## INJECT (R37) -/

/-- The injection kind of ARG1 (R37). -/
def injectionKind (arg1 : Count) : Option InjectionKind :=
  match arg1.toNat with
  | 1 => some .drop
  | 2 => some .seqSkip
  | 3 => some .encShift
  | 4 => some .mark
  | 5 => some .tagFault
  | _ => none

def doInject (arg0 arg1 arg2 : Count) (s : State) : State × Option ResultWord :=
  if h : arg0.toNat < 8 then
    let n : Lane := ⟨arg0.toNat, h⟩
    match injectionKind arg1 with
    | none => (s, some rBadArgument)
    | some k =>
      if s.livePlan.static.lanes[n].vacant || !inRange 1 8 arg2.toNat then (s, some rBadArgument)
      else (onLane n (fun l => { l with injection := some { kind := k, countdown := arg2.toNat } }) s, some rDone)
  else (s, some rBadArgument)

/-! ## COMMIT (R161 to R165, R179) -/

/-- The effect of a LANE_ENABLE commit on one lane in ARMED or RUNNING (R40, R179). -/
def enableLane (old new : Plan) (n : Lane) (s : State) : State :=
  if new.enabled n && !old.enabled n then onLane n LaneTracker.seeking s
  else if old.enabled n && !new.enabled n then laneOff n s
  else s

/-- LANE_ENABLE takes effect in ARMED and RUNNING; the seal test is evaluated if a lane was removed (R110, R156, R179). -/
def applyLaneEnable (old new : Plan) (s : State) : State :=
  if s.capture.device = .armed ∨ s.capture.device = .running then
    let s' := allLanes.foldl (fun s n => enableLane old new n s) s
    if allLanes.any fun n => old.enabled n && !new.enabled n then evalSealTest s' else s'
  else s

/-- A changed MARK_MAX_STEP limits the pending correction at once, and the newest frame's N is recomputed (R63). -/
def applyMaxStep (old new : Plan) (s : State) : State :=
  if old.run.markMaxStep = new.run.markMaxStep then s
  else recompute (setCorrection (limitStep new.run.markMaxStep s.reg.correction) s)

/-- A changed plane table or SLOTS sets the last-allocated slot to none (R78, R164). -/
def applyPlanes (old new : Plan) (s : State) : State :=
  if samePlanes old.static new.static then s else { s with table := { s.table with lastAllocated := none } }

/-- A changed ring resets the counts (R144, R164). -/
def applyRing (old new : Plan) (s : State) : State := if sameRing old.static new.static then s else resetRing s

/-- A changed ATTN_THRESHOLD evaluates the attention line (R152, R156). -/
def applyThreshold (old new : Plan) (s : State) : State :=
  if old.run.attnThreshold = new.run.attnThreshold then s else evalAttn s

/-- Steps 1 and 2 of R165: the plan is taken and the generation grows by 1, saturating. -/
def installPlan (new : Plan) (s : State) : State :=
  { s with plan := { s.plan with live := some new, generation := min Config.max16 (s.plan.generation + 1) } }

/-- The first good COMMIT takes the device from DORMANT to STOPPED and counts as a ring change (R164, R165). -/
def takeFirstPlan (new : Plan) (s : State) : State :=
  let s := installPlan new s
  resetRing { s with
    capture := { s.capture with device := .stopped }
    table := { s.table with lastAllocated := none } }

/-- A later good COMMIT takes the plan, and each block acts on the fields it owns (R165). -/
def takePlan (old new : Plan) (s : State) : State :=
  settle (applyThreshold old new (applyLaneEnable old new (applyMaxStep old new
    (applyRing old new (applyPlanes old new (installPlan new s))))))

/-- COMMIT (R161, R162). `p` is the plan in the shadow. In ARMED and RUNNING a differing static field refuses it before
any check. -/
def commitPlan (p : Plan) (s : State) : State × Option ResultWord :=
  match s.plan.live with
  | none =>
    match failedCheck s p with
    | some c => (s, some (rPlanInvalid c))
    | none => (takeFirstPlan p s, some rDone)
  | some old =>
    if (s.capture.device = .armed ∨ s.capture.device = .running) ∧ p.static ≠ old.static then (s, some rRunningField)
    else
      match failedCheck s p with
      | some c => (s, some (rPlanInvalid c))
      | none => if p = old then (s, some rNothing) else (takePlan old p s, some rDone)

def doCommit (s : State) : State × Option ResultWord := commitPlan (readPlan s.plan.shadow) s

/-! ## Taking a command (R158) -/

/-- A command as it is read from the shadow (R158, R182). -/
structure TakenCommand where
  code : Byte
  tag  : Byte
  arg0 : Count
  arg1 : Count
  arg2 : Count
  deriving DecidableEq, Repr

/-- The mailbox in the shadow (R157, R184). -/
def readMailbox (m : Memory) : TakenCommand :=
  { code := m.read offCode, tag := m.read offTag, arg0 := BitVec.ofNat 32 (m.field 4 offArg0),
    arg1 := BitVec.ofNat 32 (m.field 4 offArg1), arg2 := BitVec.ofNat 32 (m.field 4 offArg2) }

/-- The owning block's part of a command that passes tests 1 to 3 of R158. -/
def perform (c : MailCommand) (x : TakenCommand) (s : State) : State × Option ResultWord :=
  match c with
  | .commit => doCommit s
  | .start => doStart x.arg0 x.arg1 s
  | .stop => doStop x.tag s
  | .abort => doAbort s
  | .flush => doFlush s
  | .release => doRelease x.arg0 s
  | .snapshot => doSnapshot x.tag s
  | .clearErrors => doClearErrors s
  | .inject => doInject x.arg0 x.arg1 x.arg2 s

/-- Hand over the answer of a command, if it has one now (R159). -/
def answerWith (tag : Byte) (r : State × Option ResultWord) : State :=
  match r.2 with
  | none => r.1
  | some w => answer tag w r.1

/-- A command is taken and answered by the tests of R158 in order. -/
def takeCommand (x : TakenCommand) (s : State) : State :=
  match decodeCommand x.code with
  | none => answer x.tag rUnknown s
  | some c =>
    if busy c s then answer x.tag rBusy s
    else if stateAllows c s.capture.device s.capture.drainCause then answerWith x.tag (perform c x s)
    else answer x.tag rBadState s

end Sys2Proof.Machine
end

