-- ==== Sys2Proof/WellFormed.lean ====
section
/-! DEFINITION. Which commands the spec admits: the ranges of R1 and the fabric's page guarantee, and the codes of R187. -/

namespace Sys2Proof

/-- A length of R1: 1 to 256 bytes. -/
def lengthOk (n : Nat) : Bool := decide (1 ≤ n) && decide (n ≤ Config.maxBurst)

/-- A fabric write that R1 admits: 1 to 256 bytes, the first and the last in the same 4 KiB page. -/
def FabricWrite.ok (w : FabricWrite) : Bool :=
  lengthOk w.data.length
    && decide (w.addr.toNat % Config.pageBytes + w.data.length ≤ Config.pageBytes)

/-- A command byte that names no command (R187). -/
def codeIsUnknown (code : Byte) : Bool := decide (code.toNat < 1 ∨ 9 < code.toNat)

/-- A mailbox write takes a command when its tag byte is not 0 (R158). -/
def Mailbox.ok (m : Mailbox) : Bool := decide (m.tag ≠ 0)

/-- The commands the spec admits. -/
def Instr.wellFormed : Instr → Bool
  | .powerOnReset _ => true
  | .read _ len _ => lengthOk len
  | .readResponse _ data => lengthOk data.length
  | .passWrite w => w.ok
  | .planWrite w => w.ok
  | .consumerWord _ _ => true
  | .commit m => m.ok
  | .start m => m.ok
  | .stop m => m.ok
  | .abort m => m.ok
  | .flush m => m.ok
  | .release m => m.ok
  | .snapshot m => m.ok
  | .clearErrors m => m.ok
  | .inject m => m.ok
  | .unknown code m => codeIsUnknown code && m.ok
  | .lineStart w => w.ok
  | .continuation w => w.ok
  | .derivedRequestTaken => true
  | .recordTaken => true
  | .reportWordTaken => true
  | .snapshotWriteTaken => true
  | .fillWriteTaken => true
  | .sealTimerExpiry => true
  | .attentionTimerExpiry => true

end Sys2Proof
end

