-- ==== Sys2Proof/Machine/Traffic.lean ====
section
/-! DEFINITION. The traffic path (spec/01): classification (R5), the fabric port (R2), PLAN writes (R154), LANDING writes
(R8, R11), the arbiter of the memory port (R12, R13), withdrawal (R13), and power-on reset (R15). -/

namespace Sys2Proof.Machine

/-! ## Classification (R5) -/

/-- The class of a write (R5). -/
inductive WriteClass where
  | plan
  | landing (n : Lane)
  | pass
  deriving DecidableEq, Repr

/-- The address lies in the lane's landing window (R5, R16). -/
def inWindow (e : LaneEntry) (a : Nat) : Bool :=
  !e.vacant && decide (e.winBase ≤ a) && decide (a < e.winBase + e.winBytes)

/-- The lane whose landing window holds the address, under a live plan (R5). -/
def windowOf (live : Option Plan) (a : Nat) : Option Lane :=
  match live with
  | none => none
  | some p => allLanes.find? fun n => inWindow p.static.lanes[n] a

/-- The class of a write, from its first byte, the plan base and the live plan (R5). -/
def classify (s : State) (a : Nat) : WriteClass :=
  if s.planBase ≤ a ∧ a < s.planBase + Config.pageBytes then .plan
  else
    match windowOf s.plan.live a with
    | some n => .landing n
    | none => .pass

/-! ## Taking a fabric request (R2) -/

/-- A fabric write forwarded unchanged (R6, R7). -/
def forwardWrite (w : FabricWrite) : Derived := { kind := .forward, req := .write w.addr.toNat w.tag w.data }

/-- The port holds a request while derived requests of it wait; with none it is released at once (R2). -/
def hold (r : FabricRequest) (lane : Option Lane) (ds : List Derived) (s : State) : State :=
  match ds with
  | [] => { s with held := none }
  | d :: rest => { s with held := some { request := r, lane := lane, derived := d :: rest } }

/-- A write of `len` bytes at page offset `off` covers an offset of the plan page. -/
def covers (off len target : Nat) : Bool := decide (off ≤ target) && decide (target < off + len)

/-- The bytes of a PLAN write are copied into the shadow (R154). -/
def copyToShadow (off : Nat) (data : List Byte) (s : State) : State :=
  { s with plan := { s.plan with shadow := s.plan.shadow.writeBytes off data } }

/-- The consumer word acts when its highest byte is covered (R140, R154 step 1). -/
def planConsumer (off len : Nat) (s : State) : State :=
  if covers off len offConsumerActs then consumerActs (BitVec.ofNat 32 (s.plan.shadow.field 4 offConsumer)) s else s

/-- A command is taken when the tag byte is covered and is not 0 (R154 step 2, R158). -/
def planCommand (off len : Nat) (s : State) : State :=
  if covers off len offTag && decide (s.plan.shadow.read offTag ≠ 0) then takeCommand (readMailbox s.plan.shadow) s
  else s

/-- A PLAN write, in the order of R154: the bytes are copied, then the consumer word, then the command. The Report Unit
then chooses (log 7). -/
def planWriteEffect (w : FabricWrite) (s : State) : State :=
  let off := w.addr.toNat - s.planBase
  let len := w.data.length
  present (planCommand off len (planConsumer off len (copyToShadow off w.data s)))

/-- A LANDING write: the Lane Tracker deals with every byte, what follows the seals it caused happens (R129, R176), and the
port holds the write for what it derived (R8, R11). -/
def landingEffect (n : Lane) (w : FabricWrite) (s : State) : State :=
  let off := w.addr.toNat - s.livePlan.static.lanes[n].winBase
  let r := landingBurst n w.addr.toNat off w.tag w.data s
  present (hold (.write w) (some n) r.2 (settle r.1))

/-- The port takes a write, and deals with it by its class (R5 to R8). -/
def takeWrite (w : FabricWrite) (s : State) : State :=
  match classify s w.addr.toNat with
  | .plan => planWriteEffect w (hold (.write w) none [forwardWrite w] s)
  | .landing n => landingEffect n w s
  | .pass => hold (.write w) none [forwardWrite w] s

/-- The port takes a request (R2, R3). -/
def takeRequest (r : FabricRequest) (s : State) : State :=
  match r with
  | .read a len tag => hold r none [{ kind := .forward, req := .read a.toNat len tag }] s
  | .write w => takeWrite w s

/-- While the port holds no request it takes the next one offered; the rest stay offered (R2, log 3). -/
def serveList : List FabricRequest → State → State
  | [], s => { s with offered := [] }
  | r :: rest, s => if s.held.isSome then { s with offered := r :: rest } else serveList rest (takeRequest r s)

/-- The fabric port serves the requests offered. -/
def serve (s : State) : State := serveList s.offered s

/-- The fabric offers a request: a free port takes it at once, and otherwise it waits behind those already offered
(R2, log 3). -/
def offer (r : FabricRequest) (s : State) : State :=
  if s.held = none ∧ s.offered = [] then takeRequest r s else serve { s with offered := s.offered ++ [r] }

/-! ## The memory port (R12, R13) -/

/-- A fabric-derived request waits (R13). -/
def fabricWaiting (s : State) : Bool :=
  match s.held with
  | none => false
  | some h => !h.derived.isEmpty

/-- The memory controller takes a request (R12). -/
def issue (r : MemRequest) (s : State) : State := { s with memStream := r :: s.memStream }

/-- What a held request's remaining derived requests leave held: with none it is released (R2). -/
def HeldRequest.keep (h : HeldRequest) (ds : List Derived) : Option HeldRequest :=
  match ds with
  | [] => none
  | d :: rest => some { h with derived := d :: rest }

/-- The memory port takes the first fabric-derived request; when none is left the held request is released and the port
takes the next one offered (R2, R12). With none waiting nothing is taken. -/
def derivedTaken (s : State) : State :=
  match s.held with
  | none => s
  | some h =>
    match h.derived with
    | [] => s
    | d :: rest => serve (issue d.req { s with held := h.keep rest })

/-! ## The Report Unit's writes are taken (R139, R142, R147, R150, R168) -/

/-- A FRAME record is taken: the head leaves the seal queue, and a slot entry's slot goes HELD (R85, R122). -/
def frameRecordTaken (s : State) : State :=
  match s.table.queue with
  | [] => s
  | .slot e :: rest => setSlot e.slot .held { s with table := { s.table with queue := rest } }
  | .skip _ :: rest => { s with table := { s.table with queue := rest } }

/-- A latch whose notice is taken: NOTIFIED, unless CLEAR_ERRORS has been taken since it was presented (R147, R148). -/
def Latch.noticeTaken (voided : Bool) (l : Latch) : Latch :=
  { l with presented := false, standing := if voided then l.standing else .notified }

/-- The effects that belong to a record, at the moment it is taken (R139 step 2). -/
def recordEffect (k : RecordKind) (s : State) : State :=
  match k with
  | .state =>
    if s.report.noticePresented then
      { s with report := { s.report with stateNotice := none, noticePresented := false } }
    else s
  | .error latch voided => { s with report := s.report.onLatch latch (Latch.noticeTaken voided) }
  | .frame => frameRecordTaken s

/-- The counts and the attention timer when a record is taken: the producer grows by 1 and a producer word is owed
(R139), the timer is loaded if it is IDLE (R151), and ATTN is evaluated (R152). -/
def countRecord (s : State) : State :=
  evalAttn { s with report := { s.report with
    producer := s.report.producer + 1
    producerOwed := true
    attnTimer := s.report.attnTimer.onRecord s.livePlan.run.attnDelay } }

/-- The presented write is taken: it reaches the controller and nothing is presented. -/
def takePresented (w : ReportWrite) (s : State) : State :=
  issue (.write w.addr 0 w.data) { s with report := { s.report with presented := none } }

/-- The memory port takes the presented record (R139). The opening is the Report Unit's only while no fabric-derived
request waits (R13). -/
def recordTaken (s : State) : State :=
  match s.report.presented with
  | some ⟨.record k, addr, data⟩ =>
    if fabricWaiting s then s
    else present (countRecord (recordEffect k (takePresented ⟨.record k, addr, data⟩ s)))
  | _ => s

/-- The memory port takes the presented producer word or acknowledge word (R142). -/
def reportWordTaken (s : State) : State :=
  match s.report.presented with
  | some ⟨.producerWord, addr, data⟩ =>
    if fabricWaiting s then s else present (takePresented ⟨.producerWord, addr, data⟩ s)
  | some ⟨.ackWord, addr, data⟩ =>
    if fabricWaiting s then s else present (takePresented ⟨.ackWord, addr, data⟩ s)
  | _ => s

/-- With its last write taken, the SNAPSHOT's acknowledge word is handed over and it is no longer pending (R168). -/
def snapshotEnds (s : State) : State :=
  match s.report.snapshotWrites, s.plan.pendingCommand with
  | [], some (.snapshot tag) => answer tag rDone { s with plan := { s.plan with pendingCommand := none } }
  | _, _ => s

/-- The memory port takes the presented snapshot write (R168). -/
def snapshotWriteTaken (s : State) : State :=
  match s.report.presented with
  | some ⟨.snapshotWrite, addr, data⟩ =>
    if fabricWaiting s then s else present (snapshotEnds (takePresented ⟨.snapshotWrite, addr, data⟩ s))
  | _ => s

/-! ## Fill writes are taken (R132, R133) -/

/-- The memory port takes the waiting fill write: only while no fabric-derived request and no Report Unit write waits
(R13). The context advances, the frame may finish, the next is taken up, and a drain may complete. -/
def fillWriteTaken (s : State) : State :=
  match s.patch with
  | .idle => s
  | .active w =>
    match w.waiting with
    | none => s
    | some r =>
      if fabricWaiting s || s.report.presented.isSome then s
      else present (settle (advancePatch w (issue r s)))

/-! ## The seal timer expires (R113, R116, R13) -/

/-- A derived write of the frame: the ones R13 withdraws. -/
def Derived.steersInto (number : Count) (d : Derived) : Bool := decide (d.kind = .steer number)

/-- The held write's destination and padding writes for the sealed frame are withdrawn (R13). A line that the held burst
completed, with writes of it still waiting, is DISCARDING (R103, R116). -/
def withdraw (number : Count) (s : State) : State :=
  match s.held with
  | none => s
  | some h =>
    if h.derived.any (Derived.steersInto number) then
      let s := match h.lane with
        | none => s
        | some n =>
          match s.lanes[n].context with
          | .complete x => setContext n (.discarding x) s
          | _ => s
      { s with held := h.keep (h.derived.filter fun d => !d.steersInto number) }
    else s

/-- The held burst completed a TAKING line of the frame, and writes of it still wait (R103, R116). -/
def completedAndWaiting (number : Count) (s : State) : Bool :=
  match s.held with
  | none => false
  | some h =>
    h.derived.any (Derived.steersInto number) &&
      match h.lane with
      | none => false
      | some n => match s.lanes[n].context with
        | .complete _ => true
        | _ => false

/-- A completed line with writes still waiting counts as cut by the timer's seal (R103, R116). -/
def cutHeldLine (number : Count) (s : State) : State :=
  if completedAndWaiting number s then onFrame number Frame.damage s else s

/-- The seal timer expires: the frame it runs for, the oldest, seals TIMED_OUT, its waiting derived writes are withdrawn,
and a write left with none is released (R113, R116, R13). An idle timer does not expire. -/
def sealTimerExpires (s : State) : State :=
  match s.table.sealTimer with
  | .idle => s
  | .running number _ =>
    let s := cutHeldLine number s
    let s := withdraw number { s with table := { s.table with sealTimer := .idle } }
    serve (present (settle (sealWithCascade .timer s)))

/-! ## Ticks (R113, R151, log 2) -/

/-- One tick of the seal timer: at 0 it expires (R113). -/
def tickSealTimer (s : State) : State :=
  match s.table.sealTimer with
  | .idle => s
  | .running number r =>
    if r ≤ 1 then sealTimerExpires s
    else { s with table := { s.table with sealTimer := .running number (r - 1) } }

/-- One tick of the attention timer: at 0 it goes EXPIRED (R151). -/
def tickAttnTimer (s : State) : State :=
  match s.report.attnTimer with
  | .running r =>
    if r ≤ 1 then attentionExpires s else { s with report := { s.report with attnTimer := .running (r - 1) } }
  | _ => s

/-- One tick of TICK, the seal timer before the attention timer (log 9). -/
def tick (s : State) : State := tickAttnTimer (tickSealTimer s)

/-! ## Power-on reset (R15, R4) -/

/-- Power-on reset with the straps `sel`. Every block returns to its power-on values, and the held request is discarded
with its derived requests. The model's own records of what left the part stay, and so do the requests the fabric still
offers, which the port takes after the reset (logs 11, 17). -/
def powerOn (sel : Byte) (s : State) : State :=
  serve { State.resetWith sel with
    offered := s.offered, memStream := s.memStream, fabricOut := s.fabricOut, pending := s.pending }

end Sys2Proof.Machine
end

