-- ==== Sys2Proof/Machine/CommandRows.lean ====
section
/-! DEFINITION. The meanings of the rows that software gives through the plan page: the consumer word, the nine commands of
the mailbox and a command of unknown code. Each is one PLAN write (log 5). -/

namespace Sys2Proof.Machine

/-- The PLAN write of the consumer word, four bytes at offset 0xF00 (R140). -/
def consumerWrite (s : State) (reqTag : Byte) (value : Count) : FabricWrite :=
  { addr := BitVec.ofNat 48 (s.planBase + offConsumer), tag := reqTag, data := leBytes 4 value.toNat }

/-- The PLAN write of the whole mailbox, offsets 0xF40 to 0xF4D (R157, R184). -/
def mailboxWrite (s : State) (code : Byte) (m : Mailbox) : FabricWrite :=
  { addr := BitVec.ofNat 48 (s.planBase + offArg0), tag := m.reqTag,
    data := leBytes 4 m.arg0.toNat ++ leBytes 4 m.arg1.toNat ++ leBytes 4 m.arg2.toNat ++ [code, m.tag] }

/-- Software writes a command with this code into the mailbox (R157, R158). -/
def offerMailbox (code : Byte) (m : Mailbox) (s : State) : State := offer (.write (mailboxWrite s code m)) s

/-- CONSUMER_WORD (R140). -/
def execConsumerWord (reqTag : Byte) (value : Count) (s : State) : Host.Outcome State Fault Refusal :=
  .next (offer (.write (consumerWrite s reqTag value)) s)

/-- COMMIT (R161, R162). -/
def execCommit (m : Mailbox) (s : State) : Host.Outcome State Fault Refusal :=
  .next (offerMailbox MailCommand.commit.code m s)

/-- START (R172). -/
def execStart (m : Mailbox) (s : State) : Host.Outcome State Fault Refusal :=
  .next (offerMailbox MailCommand.start.code m s)

/-- STOP (R175). -/
def execStop (m : Mailbox) (s : State) : Host.Outcome State Fault Refusal :=
  .next (offerMailbox MailCommand.stop.code m s)

/-- ABORT (R178). -/
def execAbort (m : Mailbox) (s : State) : Host.Outcome State Fault Refusal :=
  .next (offerMailbox MailCommand.abort.code m s)

/-- FLUSH (R88). -/
def execFlush (m : Mailbox) (s : State) : Host.Outcome State Fault Refusal :=
  .next (offerMailbox MailCommand.flush.code m s)

/-- RELEASE (R86). -/
def execRelease (m : Mailbox) (s : State) : Host.Outcome State Fault Refusal :=
  .next (offerMailbox MailCommand.release.code m s)

/-- SNAPSHOT (R166). -/
def execSnapshot (m : Mailbox) (s : State) : Host.Outcome State Fault Refusal :=
  .next (offerMailbox MailCommand.snapshot.code m s)

/-- CLEAR_ERRORS (R148). -/
def execClearErrors (m : Mailbox) (s : State) : Host.Outcome State Fault Refusal :=
  .next (offerMailbox MailCommand.clearErrors.code m s)

/-- INJECT (R37). -/
def execInject (m : Mailbox) (s : State) : Host.Outcome State Fault Refusal :=
  .next (offerMailbox MailCommand.inject.code m s)

/-- UNKNOWN: a command word of this code; a code that names no command is answered UNKNOWN (R158, R187). -/
def execUnknown (code : Byte) (m : Mailbox) (s : State) : Host.Outcome State Fault Refusal :=
  .next (offerMailbox code m s)

end Sys2Proof.Machine
end

