-- ==== Sys2Proof/Machine/FabricRows.lean ====
section
/-! DEFINITION. The meanings of the rows on the fabric side: reset, reads, responses and the fabric writes. A fabric
request outside R1 is one the fabric guarantees not to send; the spec gives it no effect, and the model stops (log 10).
The Route Decoder classes a write by R5, whatever row offers it (log 4). -/

namespace Sys2Proof.Machine

/-- The fabric offers a write that R1 admits. -/
def offerWrite (w : FabricWrite) (s : State) : Host.Outcome State Fault Refusal :=
  if w.ok then .next (offer (.write w) s) else .fault .fabricGuaranteeBroken

/-- POWER_ON_RESET (R15, R4). -/
def execPowerOnReset (planSel : Byte) (s : State) : Host.Outcome State Fault Refusal := .next (powerOn planSel s)

/-- READ (R3): forwarded unchanged; the port is released when the forwarded read is taken. -/
def execRead (addr : Addr) (len : Nat) (tag : Byte) (s : State) : Host.Outcome State Fault Refusal :=
  if lengthOk len then .next (offer (.read addr len tag) s) else .fault .fabricGuaranteeBroken

/-- READ_RESPONSE (R3): returned to the fabric unchanged, in the order of arrival. -/
def execReadResponse (tag : Byte) (data : List Byte) (s : State) : Host.Outcome State Fault Refusal :=
  .next { s with fabricOut := { tag := tag, data := data } :: s.fabricOut }

/-- PASS_WRITE (R6). -/
def execPassWrite (w : FabricWrite) (s : State) : Host.Outcome State Fault Refusal := offerWrite w s

/-- PLAN_WRITE (R7, R154). -/
def execPlanWrite (w : FabricWrite) (s : State) : Host.Outcome State Fault Refusal := offerWrite w s

/-- LINE_START (R22). -/
def execLineStart (w : FabricWrite) (s : State) : Host.Outcome State Fault Refusal := offerWrite w s

/-- CONTINUATION (R23). -/
def execContinuation (w : FabricWrite) (s : State) : Host.Outcome State Fault Refusal := offerWrite w s

end Sys2Proof.Machine
end

