-- ==== Sys2Proof/Machine/PortRows.lean ====
section
/-! DEFINITION. The meanings of the rows on the memory side and of the timers. A row names a request that the memory port
takes; where R13 does not grant that request, nothing is taken and nothing changes (log 6). -/

namespace Sys2Proof.Machine

/-- DERIVED_REQUEST_TAKEN (R2, R12). -/
def execDerivedRequestTaken (s : State) : Host.Outcome State Fault Refusal := .next (derivedTaken s)

/-- RECORD_TAKEN (R139). -/
def execRecordTaken (s : State) : Host.Outcome State Fault Refusal := .next (recordTaken s)

/-- REPORT_WORD_TAKEN (R142). -/
def execReportWordTaken (s : State) : Host.Outcome State Fault Refusal := .next (reportWordTaken s)

/-- SNAPSHOT_WRITE_TAKEN (R168). -/
def execSnapshotWriteTaken (s : State) : Host.Outcome State Fault Refusal := .next (snapshotWriteTaken s)

/-- FILL_WRITE_TAKEN (R132). -/
def execFillWriteTaken (s : State) : Host.Outcome State Fault Refusal := .next (fillWriteTaken s)

/-- SEAL_TIMER_EXPIRY (R113). -/
def execSealTimerExpiry (s : State) : Host.Outcome State Fault Refusal := .next (sealTimerExpires s)

/-- ATTENTION_TIMER_EXPIRY (R151). -/
def execAttentionTimerExpiry (s : State) : Host.Outcome State Fault Refusal := .next (attentionExpires s)

end Sys2Proof.Machine
end

