-- ==== Sys2Proof/Machine/Dispatch.lean ====
section
/-! DEFINITION. The dispatch: one arm for each command of Instr. -/

namespace Sys2Proof.Machine

def exec (i : Instr) (s : State) : Host.Outcome State Fault Refusal :=
  match i with
  | .powerOnReset planSel => Sys2Proof.Machine.execPowerOnReset planSel s
  | .read addr len tag => Sys2Proof.Machine.execRead addr len tag s
  | .readResponse tag data => Sys2Proof.Machine.execReadResponse tag data s
  | .passWrite w => Sys2Proof.Machine.execPassWrite w s
  | .planWrite w => Sys2Proof.Machine.execPlanWrite w s
  | .consumerWord reqTag value => Sys2Proof.Machine.execConsumerWord reqTag value s
  | .commit m => Sys2Proof.Machine.execCommit m s
  | .start m => Sys2Proof.Machine.execStart m s
  | .stop m => Sys2Proof.Machine.execStop m s
  | .abort m => Sys2Proof.Machine.execAbort m s
  | .flush m => Sys2Proof.Machine.execFlush m s
  | .release m => Sys2Proof.Machine.execRelease m s
  | .snapshot m => Sys2Proof.Machine.execSnapshot m s
  | .clearErrors m => Sys2Proof.Machine.execClearErrors m s
  | .inject m => Sys2Proof.Machine.execInject m s
  | .unknown code m => Sys2Proof.Machine.execUnknown code m s
  | .lineStart w => Sys2Proof.Machine.execLineStart w s
  | .continuation w => Sys2Proof.Machine.execContinuation w s
  | .derivedRequestTaken => Sys2Proof.Machine.execDerivedRequestTaken s
  | .recordTaken => Sys2Proof.Machine.execRecordTaken s
  | .reportWordTaken => Sys2Proof.Machine.execReportWordTaken s
  | .snapshotWriteTaken => Sys2Proof.Machine.execSnapshotWriteTaken s
  | .fillWriteTaken => Sys2Proof.Machine.execFillWriteTaken s
  | .sealTimerExpiry => Sys2Proof.Machine.execSealTimerExpiry s
  | .attentionTimerExpiry => Sys2Proof.Machine.execAttentionTimerExpiry s

end Sys2Proof.Machine
end

