-- ==== Sys2Proof/Safety.lean ====
section
/-! DEFINITION. What counts as a good state of the part, and the words in which statements speak: a free port, a burst
that arrives at a lane, what a line and a seal make of a frame, the layouts of records, and the invariants of the traffic
path, of capture, of the open frames, of the slots and of the reports. -/

namespace Sys2Proof.Machine

/-! ## Between two commands -/

/-- The fabric port holds no request and none is offered (R2). -/
abbrev State.portFree (s : State) : Prop := s.held = none ∧ s.offered = []

/-- Nothing is left for the part to do by itself: an IDLE patch context has no PATCHING entry to take up (R129), no drain
is complete (R176), and the Report Unit has nothing it could present (R142). -/
abbrev Quiet (s : State) : Prop :=
  (s.patch = .idle → firstPatching s.table = none)
    ∧ ¬(s.capture.device = .draining ∧ s.table.openFrames = [] ∧ anyPatching s.table = false)
    ∧ present s = s

/-- The held request of a write with these derived requests; a write with none is released at once (R2). -/
def heldFor (w : FabricWrite) (lane : Option Lane) : List Derived → Option HeldRequest
  | [] => none
  | d :: rest => some { request := .write w, lane := lane, derived := d :: rest }

/-! ## Bursts -/

/-- A write that R1 admits is offered to a free port, and its first byte lies in lane n's window (R5). -/
abbrev Lands (w : FabricWrite) (n : Lane) (s : State) : Prop :=
  w.ok = true ∧ s.portFree ∧ classify s w.addr.toNat = .landing n

/-- The live lane table entry of a lane. -/
def State.entry (s : State) (n : Lane) : LaneEntry := s.livePlan.static.lanes[n]

/-- The window offset of a burst's first byte (R8). -/
def windowOffset (w : FabricWrite) (n : Lane) (s : State) : Nat := w.addr.toNat - (s.entry n).winBase

/-- The bytes of a burst that lie inside the window (R8). -/
def windowData (w : FabricWrite) (n : Lane) (s : State) : List Byte :=
  w.data.take ((s.entry n).winBytes - windowOffset w n s)

/-- The slot of a burst: the one that holds its first byte (R16). -/
def burstSlot (w : FabricWrite) (n : Lane) (s : State) : Nat := windowOffset w n s / (s.entry n).winStride

/-- Some used alias entry holds the burst's requester tag and names the lane (R20). -/
abbrev RequesterKnown (w : FabricWrite) (n : Lane) (s : State) : Prop :=
  ∃ i : Fin 8, s.livePlan.static.aliases[i].reqTag ≠ 0 ∧ s.livePlan.static.aliases[i].reqTag = w.tag.toNat
    ∧ s.livePlan.static.aliases[i].lane = n.val

/-- A burst that passes the requester check of a lane that is not OFF. -/
abbrev Passes (w : FabricWrite) (n : Lane) (s : State) : Prop :=
  Lands w n s ∧ s.lanes[n].state ≠ .off ∧ RequesterKnown w n s

/-- A line start that passes the requester check (R17, R22). -/
abbrev LineStarts (w : FabricWrite) (n : Lane) (s : State) : Prop :=
  Passes w n s ∧ windowOffset w n s % (s.entry n).winStride = 0

/-- A continuation that passes the requester check and does not lie in the set-aside slot (R17, R23, R25). -/
abbrev Continues (w : FabricWrite) (n : Lane) (s : State) : Prop :=
  Passes w n s ∧ windowOffset w n s % (s.entry n).winStride ≠ 0
    ∧ ∀ a, s.lanes[n].setAside = some a → a.slot ≠ burstSlot w n s

/-- The sink write of sunk bytes: at their page offset in the page that contains SINK_BASE, when SINK_ENABLE is set (R10). -/
def sunk (w : FabricWrite) (n : Lane) (s : State) : List Derived :=
  if s.livePlan.static.sinkEnable = true ∧ windowData w n s ≠ [] then
    [{ kind := .sink,
       req := .write (4096 * (s.livePlan.static.sinkBase / 4096) + w.addr.toNat % 4096) 0 (windowData w n s) }]
  else []

/-- The line of a well-formed tag at the burst's slot (R17, R21): the first pixel is expected after the 16 tag bytes. -/
def lineOf (w : FabricWrite) (n : Lane) (s : State) : LineExtent :=
  { slot := burstSlot w n s, expected := windowOffset w n s + 16,
    lineEnd := windowOffset w n s + 16 + (readTag (windowData w n s)).pix * s.livePlan.static.pixelBytes }

/-- The position of a line start's tag, ENC − DELAY modulo 2^32 (R18). -/
def tagPosition (w : FabricWrite) (n : Lane) (s : State) : Count :=
  (readTag (windowData w n s)).enc - (s.entry n).delay

/-- The tag at the head of a line start is well formed (R19). -/
abbrev TagWellFormed (w : FabricWrite) (n : Lane) (s : State) : Prop :=
  tagFault s.livePlan.static.pixelBytes (s.entry n).winStride (windowData w n s) = none

/-- No injection alters the line start: none is pending, or its countdown does not reach 0 on it (R38). -/
abbrev NoInjection (n : Lane) (s : State) : Prop := ∀ i, s.lanes[n].injection = some i → 2 ≤ i.countdown

/-- The lane of a line start after steps 1 and 2 of R22 and the end of its current line: the countdown has moved by 1, no
slot is set aside, and no line is current. -/
def LaneTracker.atLineStart (l : LaneTracker) : LaneTracker :=
  { l with
    injection := l.injection.map fun i => { i with countdown := i.countdown - 1 }
    setAside := none
    context := .none }

/-- What the lock rule of the lane's state gives for a line start's tag (R28 to R30). -/
def lockOf (w : FabricWrite) (n : Lane) (s : State) : LockResult :=
  lockRule (s.entry n) (readTag (windowData w n s)).seq (tagPosition w n s) s.lanes[n].atLineStart

/-- The lane has no line in flight. -/
abbrev NoLineInFlight (n : Lane) (s : State) : Prop := ∀ x f q pl, s.lanes[n].context ≠ .taking x f q pl

/-- A line start that the lock rules accept in RUNNING, in a quiet state, with no injection and no line of the lane in
flight (R22, R32). -/
abbrev AcceptedRunning (w : FabricWrite) (n : Lane) (s : State) : Prop :=
  LineStarts w n s ∧ Quiet s ∧ NoInjection n s ∧ NoLineInFlight n s ∧ TagWellFormed w n s
    ∧ (lockOf w n s).accepted = true ∧ s.capture.device = .running

/-- The line start does not bring the line's last byte (R22). -/
abbrev PartOfLine (w : FabricWrite) (n : Lane) (s : State) : Prop :=
  (windowData w n s).length < 16 + (readTag (windowData w n s)).pix * s.livePlan.static.pixelBytes

/-- The latch that the lock rule raises for a line start, if it raises one (R28 to R30). -/
def State.lockRaised (s : State) (w : FabricWrite) (n : Lane) : State :=
  match (lockOf w n s).raised with
  | none => s
  | some (k, d) => raise (laneLatch n k) d s

/-- The lanes once the line of an accepted line start is TAKING in a frame (R33). -/
def State.lanesTaking (s : State) (w : FabricWrite) (n : Lane) (frame : Count) (q : Nat) (place : Placement) :
    Vector LaneTracker 8 :=
  s.lanes.set n { (lockOf w n s).lane with
    context := .taking { lineOf w n s with expected := windowOffset w n s + (windowData w n s).length } frame q place }

/-- The port once a line start of a TAKING line has derived its writes (R2, R99). -/
def State.heldTaking (s : State) (w : FabricWrite) (n : Lane) (frame : Count) (place : Placement) : Option HeldRequest :=
  heldFor w (some n) (takingWrites s.livePlan.static n (lineOf w n s) frame place ((windowData w n s).drop 16))

/-! ## Commands in the mailbox -/

/-- A state in which a command of the mailbox is taken: the port is free, the shadow is in canonical form, and the tag byte
is not 0 (R157, R158). -/
abbrev Commanded (m : Mailbox) (s : State) : Prop := s.portFree ∧ s.plan.shadow.wf = true ∧ m.tag ≠ 0

/-- The state in which the command acts: the fourteen bytes of the mailbox are in the shadow (R154), and the forwarded
write waits (R7). -/
def State.withMailbox (s : State) (code : Byte) (m : Mailbox) : State :=
  { s with
    held := some { request := .write (mailboxWrite s code m), lane := none,
                   derived := [forwardWrite (mailboxWrite s code m)] }
    plan := { s.plan with shadow := s.plan.shadow.writeBytes 0xF40 (mailboxWrite s code m).data } }

/-- An acknowledge word with this tag, result word and device state waits, or is the write presented (R159, R142). -/
def Answered (tag : Byte) (r : ResultWord) (d : DeviceState) (t : State) : Prop :=
  let a : AckWord := { tag := tag, cls := r.1, detail := r.2, device := d }
  t.report.ackWaiting = some a
    ∨ (t.report.ackWaiting = none
        ∧ t.report.presented = some { kind := .ackWord, addr := t.statusBase, data := a.bytes })

/-- Every lane OFF, as STOP and ABORT leave the lanes, with injections kept or emptied (R40). -/
def lanesAllOff (keepInjection : Bool) (lanes : Vector LaneTracker 8) : Vector LaneTracker 8 :=
  Vector.ofFn fun n =>
    { state := .off, progress := 0, tagKnown := lanes[n].tagKnown, lastSeq := lanes[n].lastSeq, lastP := lanes[n].lastP,
      context := .none, setAside := none, injection := if keepInjection then lanes[n].injection else none }

/-! ## Frames and seals -/

/-- Lane n has moved on past frame f, which then reads g (R81): an open cursor closes with a run to the frame's end, recorded
by R82, with the lane's bit of the passed mask and end-seen set; a closed cursor changes nothing. -/
def PassedBy (p : StaticPlan) (n : Lane) (f g : Frame) : Prop :=
  (f.cursors[n] = .closed → g = f)
    ∧ ∀ c, f.cursors[n] = .expects c →
        let stop := f.rows * p.phases
        let room := f.runs.length < 16
        g = { f with
          cursors := f.cursors.set n .closed
          passed := f.passed ||| (1#8 <<< n.val)
          endSeen := true
          missing := f.missing + (stop - c)
          runs := if c < stop ∧ room then f.runs ++ [{ lane := n, first := c, count := stop - c }] else f.runs
          overflow := f.overflow || decide (c < stop ∧ ¬room) }

/-- A line of lane n, whose cursor stood at c, is placed at position q of frame f, which then reads g (R80, R82). N may be
recomputed, and is left out here. -/
def LineCounted (p : StaticPlan) (n : Lane) (c q : Nat) (time : Count) (f g : Frame) : Prop :=
  let room := f.runs.length < 16
  g = { f with
    rows := g.rows
    cursors := f.cursors.set n (.expects (q + 1))
    missing := f.missing + (q - c)
    runs := if c < q ∧ room then f.runs ++ [{ lane := n, first := c, count := q - c }] else f.runs
    overflow := f.overflow || decide (c < q ∧ ¬room)
    hi := some (match f.hi with | none => q / p.phases | some h => max h (q / p.phases))
    delivered := f.delivered ||| (1#8 <<< n.val)
    firstTime := some (f.firstTime.getD time) }

/-- The registration once a line in row `row` is counted in frame f, which then reads g (R54): N and the next boundary are
recomputed when the frame is the newest, its N is provisional and the row is above its highest so far; else they stay. -/
def RowsFollow (newest : Prop) (row : Nat) (f g : Frame) (s t : State) : Prop :=
  let recomputed := newest ∧ f.fixed = false ∧ ∀ h, f.hi = some h → h < row
  (recomputed → g.rows = provisionalRows s.livePlan s.reg.correction g
      ∧ t.reg = { s.reg with next := some (nextBoundary s.livePlan s.reg.correction g) })
    ∧ (¬recomputed → g.rows = f.rows ∧ t.reg = s.reg)

/-- N and the next boundary of a frame that opened at boundary b and reads g (R53, R55): those of a pending correction of 0.
Under plan check 3 and with accepted rows within it, N is floor((ρ + L) / 65536), and the rest is the next residue. -/
def RowsOnOpening (p : Plan) (b : Boundary) (g : Frame) (next : Option Boundary) : Prop :=
  let span := b.residue + p.static.repeatLen
  g.rows = provisionalRows p 0 g ∧ next = some (nextBoundary p 0 g)
    ∧ (check3 p = true → b.residue ≤ 65535 → (∀ h, g.hi = some h → (h + 1) * 65536 ≤ span) →
        g.rows = span / 65536
          ∧ next = some { frame := b.frame + 1, start := b.start + BitVec.ofNat 32 (span / 65536 * p.static.phases),
                          residue := span % 65536, correction := 0, clamped := false, fixed := false })

/-- A lane other than `except` is in LANE_ENABLE and LOCKED and has no bit in the frame's passed mask, or N is provisional:
the frame does not meet the seal test (R110), whatever lane `except` does. -/
def Awaited (except : Option Lane) (s : State) (f : Frame) : Prop :=
  f.fixed = false
    ∨ ∃ m : Lane, except ≠ some m ∧ s.livePlan.run.laneEnable.getLsbD m.val = true ∧ s.lanes[m].state = .locked
        ∧ f.passed.getLsbD m.val = false

/-- The seal timer once the oldest open frame's end-seen flag may have been set (R112): an idle timer is loaded with
SEAL_TIMEOUT, when that is not 0, for a frame whose flag `before` says was clear and now is set. -/
def timerOnceSeen (before : Bool) (run : RunPlan) (o : Frame) : SealTimer → SealTimer
  | .running j r => .running j r
  | .idle => if before = false ∧ o.endSeen = true ∧ run.sealTimeout ≠ 0 then .running o.number run.sealTimeout else .idle

/-- The lane's line has received its last byte, and destination or padding writes into the frame, of the burst that brought
it, still wait at the port: a seal by the timer cuts it too (R103, R116). -/
def State.completedHeld (s : State) (number : Count) (n : Lane) : Bool :=
  (match s.held with
    | none => false
    | some h => decide (h.lane = some n) && h.derived.any fun d => decide (d.kind = .steer number))
  && match s.lanes[n].context with
    | .complete _ => true
    | _ => false

/-- What the port holds once the destination and padding writes into a frame are withdrawn (R13): every other derived
request still waits, and a request left with none is released. -/
def State.heldWithout (s : State) (number : Count) : Option HeldRequest :=
  match s.held with
  | none => none
  | some h =>
    let kept := h.derived.filter fun d => decide (d.kind ≠ .steer number)
    if kept = [] then none else some { h with derived := kept }

/-- The lanes with a line in flight into a frame (R116). -/
def State.cutsInto (s : State) (number : Count) : Nat :=
  ((List.finRange 8).filter fun n : Lane => s.lanes[n].context.takingInto number).length

/-- The lanes whose line the seal timer's seal of a frame cuts (R116): in flight, or completed by the held write. -/
def State.timerCuts (s : State) (number : Count) : Nat :=
  ((List.finRange 8).filter fun n : Lane => s.lanes[n].context.takingInto number || s.completedHeld number n).length

/-- The run tails of a seal (R115): for lane 0 to lane 7, when the lane is in LANE_ENABLE and its cursor is open and below
N × F, the run from the cursor to N × F. -/
def runTails (p : Plan) (f : Frame) : List Run :=
  let stop := f.rows * p.static.phases
  (List.finRange 8).filterMap fun n : Lane =>
    match f.cursors[n] with
    | .closed => none
    | .expects c =>
      if p.run.laneEnable.getLsbD n.val = true ∧ c < stop then some { lane := n, first := c, count := stop - c } else none

/-- The queue entry of a frame with a slot, sealed under a plan with a status, `cut` of its lines cut by the event (R115 to
R117, R124). -/
def SealedEntry (p : Plan) (status : FrameStatus) (cut : Nat) (f : Frame) (e : SlotEntry) : Prop :=
  f.slot = some e.slot ∧ e.number = f.number ∧ e.status = status ∧ e.rows = f.rows ∧ e.start = f.start
    ∧ e.correction = f.correction ∧ e.clamped = f.clamped ∧ e.delivered = f.delivered ∧ e.firstTime = f.firstTime
    ∧ e.markTaken = f.markTaken ∧ e.missing = (f.closeAll p).missing ∧ e.overflow = (f.closeAll p).overflow
    ∧ e.damaged = min 65535 (f.damaged + cut) ∧ e.abandoned = false

/-- A skip entry that a slotless frame has joined, `cut` of its lines cut by the event (R120, R125). -/
def SkipCovers (p : Plan) (cut : Nat) (f : Frame) (x : SkipEntry) : Prop :=
  (∃ i, f.number = x.first + BitVec.ofNat 32 i ∧ (i < x.count ∨ x.count = 4294967295))
    ∧ min 65535 (f.damaged + cut) ≤ x.damaged ∧ min 4294967295 (f.closeAll p).missing ≤ x.missing
    ∧ x.delivered ||| f.delivered = x.delivered ∧ (f.markTaken = true → x.markTaken = true)

/-! ## Fills -/

/-- Every byte is the FILL_VALUE of a plane: its low byte, or with two-byte pixels its low and its high byte in turn (R131). -/
def FillPattern (p : StaticPlan) (plane : Fin 4) (data : List Byte) : Prop :=
  ∀ i, i < data.length → data[i]? = some (if p.pixelBytes = 2 ∧ i % 2 = 1 then
    BitVec.ofNat 8 (p.planes[plane].fill / 256) else BitVec.ofNat 8 p.planes[plane].fill)

/-- What position i of a run fills in a slot (R130). -/
def Run.target (p : StaticPlan) (slot : Fin 32) (r : Run) (i : Nat) : Option (Fin 4 × Nat) :=
  fillTarget p slot r.lane (r.first + i)

/-- The context works position i of run j of a patch list, which fills a segment, from its first fill write on (R128, R131). -/
def WorksFrom (p : StaticPlan) (slot : Fin 32) (r : Run) (j i : Nat) (plane : Fin 4) (segment : Nat) (c : PatchContext) : Prop :=
  ∃ data, c = .active { slot := slot, runIndex := j, posIndex := i, plane := plane, byteOffset := 0,
                        waiting := some (.write segment 0 data) }
    ∧ data.length = min 256 (p.lanes[r.lane].keep * p.pixelBytes) ∧ FillPattern p plane data

/-- No position of the runs fills anything (R129). -/
abbrev NothingToFill (p : StaticPlan) (slot : Fin 32) (runs : List Run) : Prop :=
  ∀ r ∈ runs, ∀ i, i < r.count → r.target p slot i = none

/-- A frame with this slot and patch list is taken up: the context is ACTIVE at the first position that fills something
(R129). -/
def TakenUp (p : StaticPlan) (slot : Fin 32) (runs : List Run) (c : PatchContext) : Prop :=
  ∃ (j i : Nat) (r : Run) (plane : Fin 4) (segment : Nat),
    runs[j]? = some r ∧ i < r.count ∧ r.target p slot i = some (plane, segment)
      ∧ (∀ i', i' < i → r.target p slot i' = none) ∧ NothingToFill p slot (runs.take j)
      ∧ WorksFrom p slot r j i plane segment c

/-- What the seal of a frame by a cause other than ABORT makes of its slot and of the patch context, which reads `before` and
then `after` (R117, R127, R129, R133). Without patching the slot is READY. With patching, an ACTIVE context stays and the
slot is PATCHING with its patch list; an IDLE one takes the frame up, or, when no recorded position fills anything, the slot
is READY and FILLED at once. -/
def HandedOn (p : Plan) (f : Frame) (e : SlotEntry) (slot : SlotState) (before after : PatchContext) : Prop :=
  let runs := (f.closeAll p).runs
  let patched := p.run.patchEnable = true ∧ runs ≠ []
  let nothing := NothingToFill p.static e.slot runs
  let listed := slot = .patching ∧ e.filled = false ∧ e.patchList = some runs
  (¬patched → slot = .ready ∧ e.filled = false ∧ e.patchList = none ∧ after = before)
    ∧ (patched → before ≠ .idle → listed ∧ after = before)
    ∧ (patched → before = .idle → ¬nothing → listed ∧ TakenUp p.static e.slot runs after)
    ∧ (patched → before = .idle → nothing → slot = .ready ∧ e.filled = true ∧ e.patchList = none ∧ after = .idle)

/-! ## The status and what follows a seal -/

/-- COMPLETE or INCOMPLETE, by the missing count after the run tails (R108, R111). -/
def lanesStatus (p : Plan) (f : Frame) : FrameStatus := if (f.closeAll p).missing = 0 then .complete else .incomplete

/-- The device after the seal of frame 0 in SINGLE mode (R176, R177): the drain is complete, with its notice, or waits for a
slot that is PATCHING. -/
def SingleEnded (s t : State) : Prop :=
  (anyPatching t.table = false ∧ t.capture = { s.capture with device := .stopped, drainCause := .none }
      ∧ t.report.stateNotice = some { device := .stopped, cause := .singleDone, generation := s.plan.generation,
                                      origin := s.reg.origin })
    ∨ (anyPatching t.table = true ∧ t.capture = { s.capture with device := .draining, drainCause := .singleDone })

/-! ## Injected tags -/

/-- The line start with its tag as an injection of this kind leaves it (R39): SEQ + 1, ENC + F, or the mark flag set. -/
def injectedWrite (kind : InjectionKind) (w : FabricWrite) (n : Lane) (s : State) : FabricWrite :=
  let t := readTag (windowData w n s)
  let put (off : Nat) (bytes : List Byte) : FabricWrite :=
    { w with data := w.data.take off ++ bytes ++ w.data.drop (off + bytes.length) }
  match kind with
  | .drop => w
  | .seqSkip => put 2 (leBytes 2 (t.seq + 1).toNat)
  | .encShift => put 4 (leBytes 4 (t.enc + BitVec.ofNat 32 s.livePlan.static.phases).toNat)
  | .mark => put 1 [1]
  | .tagFault => w

/-! ## Layouts -/

/-- The field of `width` bytes at an offset holds a number, little-endian (R181). -/
def FieldIs (bytes : List Byte) (off width value : Nat) : Prop :=
  ∀ j, j < width → bytes[off + j]? = some (BitVec.ofNat 8 (value / 256 ^ j))

/-- The field of `width` bytes at an offset holds an integer in two's complement, little-endian (R181). -/
def SignedFieldIs (bytes : List Byte) (off width : Nat) (value : Int) : Prop :=
  FieldIs bytes off width (value % 256 ^ width).toNat

/-! ## Latches -/

/-- One raise of latch k with a detail, between two states (R146): the count grows by 1 up to 65535, a CLEAR latch takes
the detail and goes DUE, and no other latch changes. -/
def RaisedOnce (k : Fin 52) (d : LatchDetail) (s t : State) : Prop :=
  t.report.latches[k].count = min 65535 (s.report.latches[k].count + 1)
    ∧ (s.report.latches[k].standing = .clear →
        t.report.latches[k].standing = .due ∧ t.report.latches[k].detail = some d)
    ∧ (s.report.latches[k].standing ≠ .clear →
        t.report.latches[k].standing = s.report.latches[k].standing
          ∧ t.report.latches[k].detail = s.report.latches[k].detail)
    ∧ ∀ j : Fin 52, j ≠ k → t.report.latches[j] = s.report.latches[j]

/-! ## Invariants -/

/-- An offered request that R1 admits. -/
def FabricRequest.ok : FabricRequest → Bool
  | .read _ len _ => lengthOk len
  | .write w => w.ok

/-- The plan shadow is in canonical form, it lists offsets of the page only, and every offered request is one that R1
admits (R1, R154). -/
def ShadowInv (s : State) : Prop :=
  s.plan.shadow.wf = true ∧ (∀ c ∈ s.plan.shadow, c.1 < Config.pageBytes) ∧ ∀ r ∈ s.offered, r.ok = true

/-- The port holds a request while one waits to be taken, and what it holds has derived requests (R2). -/
def PortInv (s : State) : Prop :=
  (s.held = none → s.offered = []) ∧ ∀ h, s.held = some h → h.derived ≠ []

/-- A device that is DORMANT, STOPPED or ARMED has no frame open (R68, R174). -/
def DeviceState.closed : DeviceState → Bool
  | .dormant => true
  | .stopped => true
  | .armed => true
  | .running => false
  | .draining => false

/-- The live plan is absent exactly in DORMANT (R155); no frame is open in DORMANT, STOPPED and ARMED; and a lane that is
not OFF is in LANE_ENABLE of a device that is ARMED or RUNNING (R27). -/
def CaptureInv (s : State) : Prop :=
  (s.plan.live = none ↔ s.capture.device = .dormant)
    ∧ (s.capture.device.closed = true → s.table.openFrames = [])
    ∧ ∀ n : Lane, s.lanes[n].state ≠ .off →
        (s.capture.device = .armed ∨ s.capture.device = .running) ∧ s.livePlan.enabled n = true

/-- Frames that carry consecutive numbers, each but the newest with a fixed row count, each start the start before plus
N × F (R67, R68). -/
def chained (phases : Nat) : List Frame → Prop
  | [] => True
  | [_] => True
  | f :: g :: rest =>
    g.number = f.number + 1 ∧ g.start = f.start + BitVec.ofNat 32 (f.rows * phases) ∧ f.fixed = true
      ∧ chained phases (g :: rest)

/-- At most four frames are open, they form a chain, and the next boundary is the end of the newest of them (R44, R50,
R67, R68). -/
def ChainInv (s : State) : Prop :=
  CaptureInv s ∧ s.table.openFrames.length ≤ 4 ∧ chained s.livePlan.static.phases s.table.openFrames
    ∧ ∀ f, s.table.openFrames.getLast? = some f →
        ∃ b, s.reg.next = some b ∧ b.frame = f.number + 1
          ∧ b.start = f.start + BitVec.ofNat 32 (f.rows * s.livePlan.static.phases)

/-- The rows of one open frame: a residue below one row, 8 to FRAME_ROWS rows, and every accepted row below N (R58). -/
def Frame.rowsOk (h : Nat) (f : Frame) : Prop :=
  f.residue ≤ 65535 ∧ 8 ≤ f.rows ∧ f.rows ≤ h ∧ ∀ r, f.hi = some r → r < f.rows

/-- The live plan passes the checks the row counts rest on, and every open frame's rows are as R58 says. -/
def RowsInv (s : State) : Prop :=
  CaptureInv s
    ∧ (∀ p, s.plan.live = some p → check3 p = true ∧ check4 p = true ∧ p.static.roundBias ≤ 65535)
    ∧ (∀ b, s.reg.next = some b → b.residue ≤ 65535)
    ∧ ∀ f ∈ s.table.openFrames, f.rowsOk s.livePlan.static.frameRows

/-- The magnitude of the pending correction is at most MARK_MAX_STEP (R44); before the first plan it is 0. -/
def CorrectionInv (s : State) : Prop :=
  match s.plan.live with
  | none => s.reg.correction = 0
  | some p => -(p.run.markMaxStep : Int) ≤ s.reg.correction ∧ s.reg.correction ≤ p.run.markMaxStep

/-- The unconsumed records fit the ring, with an entry free for a record that is presented (R138, R139). -/
def RingInv (s : State) : Prop :=
  ∀ p, s.plan.live = some p →
    s.report.unconsumed ≤ p.static.ringEntries
      ∧ (s.report.recordPresented = true → s.report.unconsumed < p.static.ringEntries)

/-- ATTN is the level that R152 says, and low while there is no live plan (R155). -/
def AttnInv (s : State) : Prop :=
  (s.plan.live = none → s.report.attn = false)
    ∧ ∀ p, s.plan.live = some p →
        (s.report.attn = true ↔
          p.run.attnThreshold ≤ s.report.unconsumed ∨ (s.report.attnTimer = .expired ∧ 1 ≤ s.report.unconsumed))

/-- The saturating counts stay in their ranges: the generation (R155), the latch counts (R145), the mark-lost count (R64),
and of every open frame the damaged count (R34) and the run list (R67). -/
def CountsInv (s : State) : Prop :=
  s.plan.generation ≤ 65535 ∧ (∀ k : Fin 52, s.report.latches[k].count ≤ 65535) ∧ s.reg.markLost ≤ 255
    ∧ ∀ f ∈ s.table.openFrames, f.damaged ≤ 65535 ∧ f.runs.length ≤ 16

/-- The slot of a seal-queue entry; a skip entry has none. -/
def QueueEntry.slotOf : QueueEntry → Option (Fin 32)
  | .slot e => some e.slot
  | .skip _ => none

/-- The slots that open frames hold, and the slots of the seal queue's entries. -/
def FrameTable.frameSlots (t : FrameTable) : List (Fin 32) := t.openFrames.filterMap Frame.slot
def FrameTable.entrySlots (t : FrameTable) : List (Fin 32) := t.queue.filterMap QueueEntry.slotOf

/-- Every slot has one owner (R83, R84, R121, R122, R128): FILLING slots are those of the open frames, PATCHING and READY
slots those of the seal queue's entries, none twice; the slot under patch is PATCHING; and while a FRAME record is presented
the head is one that is offered. -/
def SlotInv (s : State) : Prop :=
  s.table.frameSlots.Nodup ∧ s.table.entrySlots.Nodup
    ∧ (∀ k : Fin 32, s.table.slots[k] = .filling ↔ k ∈ s.table.frameSlots)
    ∧ (∀ k : Fin 32, (s.table.slots[k] = .patching ∨ s.table.slots[k] = .ready) ↔ k ∈ s.table.entrySlots)
    ∧ (∀ w, s.patch = .active w → s.table.slots[w.slot] = .patching)
    ∧ (s.report.framePresented = true → offeredHead s.table ≠ none)

/-- The number of the frame that seals next: of the oldest open frame, or of the next boundary with none open. -/
def State.nextToSeal (s : State) : Option Count :=
  match s.table.openFrames with
  | f :: _ => some f.number
  | [] => s.reg.next.map Boundary.frame

/-- Skip entries of the seal queue are adjacent at its head only, and a skip entry at the tail takes in the frame that seals
next; in ARMED the tail is no skip entry (R120, R121). -/
def QueueInv (s : State) : Prop :=
  ChainInv s
    ∧ (∀ i x y, s.table.queue[i]? = some (.skip x) → s.table.queue[i + 1]? = some (.skip y) → i = 0)
    ∧ ∀ x, s.table.queue.getLast? = some (.skip x) →
        s.capture.device ≠ .armed ∧ ∀ number, s.nextToSeal = some number →
          x.count = 4294967295 ∨ x.first + BitVec.ofNat 32 x.count = number

/-- The Report Unit has nothing left that it could present (R142; the model lets it choose at the end of a step, log 7). -/
def ChoiceInv (s : State) : Prop := present s = s

end Sys2Proof.Machine
end

