-- ==== Sys2Proof/Certificates/Slice0/Obligations.lean ====
section
/-! DEFINITION. The statements for the provers, family by family. A statement that rests on a choice of the model says so and
names the log entry. -/

open Sys2Proof Sys2Proof.Machine

/-! ### The queue of commands, ticks and stops -/

/-- A step takes the command at the front of the queue and runs it with the queue's rest. On an empty queue one tick passes:
the seal timer's and then the attention timer's (R113, R151). A timer that does not run stays as it is; a running one counts
down by 1, and one that this brings to 0 expires, with all that its row of expiry does. That an empty queue is a tick is the
model's choice (log 2), and so is the order of the two timers (log 9). -/
def Obligations.StepRunsFrontCommand : Prop :=
  (∀ (c : Instr) (rest : List Instr) (s : State), s.pending = c :: rest → step s = exec c { s with pending := rest })
  ∧ (∀ s : State, s.pending = [] → ∃ t : State,
      (s.table.sealTimer = .idle → t = s)
      ∧ (∀ f r, s.table.sealTimer = .running f r → 2 ≤ r →
          t = { s with table := { s.table with sealTimer := .running f (r - 1) } })
      ∧ (∀ f r, s.table.sealTimer = .running f r → r ≤ 1 → exec .sealTimerExpiry s = .next t)
      ∧ ((∀ r, t.report.attnTimer ≠ .running r) → step s = .next t)
      ∧ (∀ r, t.report.attnTimer = .running r → 2 ≤ r →
          step s = .next { t with report := { t.report with attnTimer := .running (r - 1) } })
      ∧ (∀ r, t.report.attnTimer = .running r → r ≤ 1 → step s = exec .attentionTimerExpiry t))

/-- No command is refused. READ with a length outside 1 to 256, and PASS_WRITE, PLAN_WRITE, LINE_START and CONTINUATION with
such a length or with bytes in two 4 KiB pages, end in the one fault, since R1 gives such a request no effect (log 10);
every other command, and these five with a request that R1 admits, answers a next state. -/
def Obligations.OnlyBadRequestsStop : Prop :=
  ∀ (c : Instr) (s : State),
    let lengthOk (len : Nat) : Prop := 1 ≤ len ∧ len ≤ 256
    let onePage (w : FabricWrite) : Prop := w.addr.toNat % 4096 + w.data.length ≤ 4096
    let admitted (w : FabricWrite) : Prop := lengthOk w.data.length ∧ onePage w
    let bad : Prop :=
      (∃ a len tag, c = .read a len tag ∧ ¬lengthOk len)
        ∨ ∃ w, (c = .passWrite w ∨ c = .planWrite w ∨ c = .lineStart w ∨ c = .continuation w) ∧ ¬admitted w
    (bad → exec c s = .fault .fabricGuaranteeBroken) ∧ (¬bad → ∃ t, exec c s = .next t)

/-! ### The traffic path -/

/-- POWER_ON_RESET returns every block to its power-on values, samples the straps and discards the held request. What has
left the part and the commands that wait stay (logs 11, 17). The values beside an unknown last tag are log 13. -/
def Obligations.PowerOnReset : Prop :=
  ∀ (sel : Byte) (s : State), s.offered = [] →
    ∃ t, exec (.powerOnReset sel) s = .next t
      ∧ t = { State.resetWith sel with memStream := s.memStream, fabricOut := s.fabricOut, pending := s.pending }
      ∧ t.planSel = sel ∧ t.planBase = 16777216 * sel.toNat ∧ t.statusBase = 16777216 * sel.toNat + 4096
      ∧ t.held = none
      ∧ (∀ n : Lane, t.lanes[n] = { state := .off, progress := 0, tagKnown := false, lastSeq := 0, lastP := 0,
                                    context := .none, setAside := none, injection := none })
      ∧ t.table.openFrames = [] ∧ (∀ k : Fin 32, t.table.slots[k] = .free) ∧ t.table.lastAllocated = none
      ∧ t.table.sealTimer = .idle ∧ t.table.queue = [] ∧ t.patch = .idle
      ∧ t.report.producer = 0 ∧ t.report.consumer = 0 ∧ t.report.attnTimer = .idle ∧ t.report.attn = false
      ∧ (∀ k : Fin 52, t.report.latches[k] = { standing := .clear, detail := none, count := 0, presented := false })
      ∧ t.report.presented = none ∧ (∀ a, t.plan.shadow.read a = 0) ∧ t.plan.live = none ∧ t.plan.generation = 0
      ∧ t.plan.pendingCommand = none ∧ t.capture.device = .dormant ∧ t.reg.origin = none

/-- READ: a read is forwarded unchanged and held until it is taken; READ_RESPONSE: a response is returned unchanged, in the
order in which responses arrive. -/
def Obligations.ReadsPassUnchanged : Prop :=
  (∀ (a : Addr) (len : Nat) (tag : Byte) (s : State), s.portFree → 1 ≤ len → len ≤ 256 →
    exec (.read a len tag) s = .next { s with
      held := some { request := .read a len tag, lane := none,
                     derived := [{ kind := .forward, req := .read a.toNat len tag }] } })
  ∧ ∀ (tag : Byte) (data : List Byte) (s : State),
      exec (.readResponse tag data) s = .next { s with fabricOut := { tag := tag, data := data } :: s.fabricOut }

/-- R2, R12: while the port holds a request, an offered one waits behind those offered before and changes nothing else (log
3). DERIVED_REQUEST_TAKEN: the first derived request reaches the controller; the held request is released with the last of
them, and the port then takes the next request offered, here none or a read. -/
def Obligations.PortHoldsOneRequest : Prop :=
  (∀ s : State, s.held.isSome = true →
      (∀ (a : Addr) (len : Nat) (tag : Byte), 1 ≤ len → len ≤ 256 →
        exec (.read a len tag) s = .next { s with offered := s.offered ++ [.read a len tag] })
      ∧ ∀ w : FabricWrite, w.ok = true →
        exec (.passWrite w) s = .next { s with offered := s.offered ++ [.write w] }
          ∧ exec (.planWrite w) s = .next { s with offered := s.offered ++ [.write w] }
          ∧ exec (.lineStart w) s = .next { s with offered := s.offered ++ [.write w] }
          ∧ exec (.continuation w) s = .next { s with offered := s.offered ++ [.write w] })
  ∧ (∀ (s : State) (h : HeldRequest) (d : Derived) (rest : List Derived), s.held = some h → h.derived = d :: rest →
      (rest ≠ [] → exec .derivedRequestTaken s = .next { s with
        held := some { h with derived := rest }, memStream := d.req :: s.memStream })
      ∧ (rest = [] → s.offered = [] →
          exec .derivedRequestTaken s = .next { s with held := none, memStream := d.req :: s.memStream })
      ∧ ∀ a len tag more, rest = [] → s.offered = .read a len tag :: more →
          exec .derivedRequestTaken s = .next { s with
            held := some { request := .read a len tag, lane := none,
                           derived := [{ kind := .forward, req := .read a.toNat len tag }] }
            offered := more
            memStream := d.req :: s.memStream })

/-- PASS_WRITE: forwarded with its address, length, requester tag and data unchanged, and handed to no other block. -/
def Obligations.PassWriteIsForwarded : Prop :=
  ∀ (w : FabricWrite) (s : State), w.ok = true → s.portFree → classify s w.addr.toNat = .pass →
    exec (.passWrite w) s = .next { s with
      held := some { request := .write w, lane := none,
                     derived := [{ kind := .forward, req := .write w.addr.toNat w.tag w.data }] } }

/-- PLAN_WRITE: forwarded unchanged and copied byte by byte into the shadow, every other byte of which reads as before. A
write that covers neither offset 0xF03 nor a non-zero tag byte at 0xF4D acts on nothing else. -/
def Obligations.PlanWriteIsCopied : Prop :=
  ∀ (w : FabricWrite) (s : State), w.ok = true → s.portFree → s.plan.shadow.wf = true → present s = s →
    s.planBase ≤ w.addr.toNat → w.addr.toNat < s.planBase + 4096 →
    (∀ i b, w.data[i]? = some b → w.addr.toNat - s.planBase + i ≠ 0xF03) →
    (∀ i b, w.data[i]? = some b → w.addr.toNat - s.planBase + i = 0xF4D → b = 0) →
    ∃ m : Memory,
      exec (.planWrite w) s = .next { s with
        held := some { request := .write w, lane := none,
                       derived := [{ kind := .forward, req := .write w.addr.toNat w.tag w.data }] }
        plan := { s.plan with shadow := m } }
      ∧ (∀ i b, w.data[i]? = some b → m.read (w.addr.toNat - s.planBase + i) = b)
      ∧ ∀ a, a < w.addr.toNat - s.planBase ∨ w.addr.toNat - s.planBase + w.data.length ≤ a →
          m.read a = s.plan.shadow.read a

/-- R5: a write is classed by its first byte: PLAN in the plan page; LANDING n under a live plan in the window of the
non-vacant lane n, the one whose window holds the byte; PASS otherwise. -/
def Obligations.WritesAreClassified : Prop :=
  ∀ (s : State) (a : Nat),
    let inPage := s.planBase ≤ a ∧ a < s.planBase + 4096
    let inWindow (p : Plan) (n : Lane) : Prop :=
      p.static.lanes[n].winLines ≠ 0 ∧ p.static.lanes[n].winBase ≤ a
        ∧ a < p.static.lanes[n].winBase + p.static.lanes[n].winLines * p.static.lanes[n].winStride
    (inPage → classify s a = .plan)
      ∧ (∀ p n, ¬inPage → s.plan.live = some p → inWindow p n → (∀ m, inWindow p m → m = n) →
          classify s a = .landing n)
      ∧ (¬inPage → (∀ p n, s.plan.live = some p → ¬inWindow p n) → classify s a = .pass)

/-- R13: while a fabric-derived request waits, no write of the Report Unit and no fill write is taken; while a write of the
Report Unit is presented, no fill write is. A row that names such a taking then changes nothing (log 6). -/
def Obligations.ArbiterOrder : Prop :=
  ∀ s : State,
    (∀ h, s.held = some h → h.derived ≠ [] →
      exec .recordTaken s = .next s ∧ exec .reportWordTaken s = .next s ∧ exec .snapshotWriteTaken s = .next s
        ∧ exec .fillWriteTaken s = .next s)
    ∧ (s.report.presented.isSome = true → exec .fillWriteTaken s = .next s)

/-! ### Landing bursts -/

/-- R20, R27: every burst of an OFF lane is dropped, without a check or a latch; on any other lane a burst whose requester
tag no used alias entry pairs with the lane raises TAG_REJECT and is sunk, and the lane's record stays as it was. The Report
Unit chooses at the end of the step (log 7). -/
def Obligations.BurstsAreChecked : Prop :=
  (∀ (w : FabricWrite) (n : Lane) (s : State), Lands w n s → Quiet s → s.lanes[n].state = .off →
      exec (.lineStart w) s = .next s ∧ exec (.continuation w) s = .next s)
  ∧ (∀ (w : FabricWrite) (n : Lane) (s : State), Lands w n s → Quiet s → s.lanes[n].state ≠ .off →
      ¬RequesterKnown w n s →
      ∃ t, exec (.lineStart w) s = .next t ∧ exec (.continuation w) s = .next t
        ∧ t = present { raise (laneLatch n .tagReject) (.tagReject w.tag (windowOffset w n s)) s with
            held := heldFor w (some n) (sunk w n s) })

/-- R19, R22: the conditions of a malformed tag, of which the lowest is recorded (a burst shorter than 16 bytes is judged by
condition 1 alone). A malformed line start ends the current line, which is cut if it is in flight, raises MALFORMED with the
cause code, and sinks its bytes; the lock state, the lock progress and the last tag stay. The slot that SINKING keeps is log
19. The Report Unit chooses at the end of the step (log 7). -/
def Obligations.MalformedTags : Prop :=
  (∀ (pixelBytes winStride : Nat) (data : List Byte),
      let byte (i : Nat) : Nat := (data[i]?.getD 0).toNat
      let pix := byte 8 + 256 * byte 9
      let bad (c : Nat) : Prop :=
        match c with
        | 1 => data.length < 16
        | 2 => byte 0 ≠ 0xA6
        | 3 => 2 ≤ byte 1
        | 4 => byte 10 + 256 * byte 11 ≠ 0
        | 5 => pix = 0 ∨ 16384 < pix
        | 6 => winStride < 16 + pix * pixelBytes
        | _ => False
      (tagFault pixelBytes winStride data = none ↔ ∀ c, ¬bad c)
        ∧ ∀ c, tagFault pixelBytes winStride data = some c ↔ bad c ∧ ∀ c', c' < c → ¬bad c')
  ∧ (∀ (w : FabricWrite) (n : Lane) (s : State) (code : Nat), LineStarts w n s → Quiet s → NoInjection n s →
      tagFault s.livePlan.static.pixelBytes (s.entry n).winStride (windowData w n s) = some code →
      exec (.lineStart w) s = .next (present
        { raise (laneLatch n .malformed) (.malformed code (windowOffset w n s)) (cutLine n s) with
          lanes := s.lanes.set n { s.lanes[n].atLineStart with context := .sinking (burstSlot w n s) }
          held := heldFor w (some n) (sunk w n s) }))

/-- R38, R39: an injection that fires with DROP sets the line start aside with mode ABSORB, and nothing else changes; one
that fires with TAG_FAULT sets it aside with mode REJECT, raises TAG_REJECT and sinks the bytes. The Report Unit chooses at
the end of the step (log 7). One that fires with SEQ_SKIP, ENC_SHIFT or MARK on a well-formed tag gives what the lane
without an injection would make of the line start whose tag has SEQ + 1, ENC + F or the mark flag set; on a malformed tag it
is spent, and the line start is dealt with as the lane without an injection would. -/
def Obligations.InjectedLinesAreSetAside : Prop :=
  (∀ (w : FabricWrite) (n : Lane) (s : State), LineStarts w n s → Quiet s →
      s.lanes[n].injection = some { kind := .drop, countdown := 1 } →
      exec (.lineStart w) s = .next { s with
        lanes := s.lanes.set n { s.lanes[n] with
          injection := none, setAside := some { slot := burstSlot w n s, mode := .absorb } } })
  ∧ (∀ (w : FabricWrite) (n : Lane) (s : State), LineStarts w n s → Quiet s →
      s.lanes[n].injection = some { kind := .tagFault, countdown := 1 } →
      exec (.lineStart w) s = .next (present
        { raise (laneLatch n .tagReject) (.tagReject w.tag (windowOffset w n s)) s with
          lanes := s.lanes.set n { s.lanes[n] with
            injection := none, setAside := some { slot := burstSlot w n s, mode := .reject } }
          held := heldFor w (some n) (sunk w n s) }))
  ∧ (∀ (w : FabricWrite) (n : Lane) (s : State) (kind : InjectionKind), LineStarts w n s →
      (kind = .seqSkip ∨ kind = .encShift ∨ kind = .mark) →
      s.lanes[n].injection = some { kind := kind, countdown := 1 } →
      let spent : State := { s with lanes := s.lanes.set n { s.lanes[n] with injection := none } }
      (TagWellFormed w n s → ∃ t, exec (.lineStart (injectedWrite kind w n s)) spent = .next t
        ∧ exec (.lineStart w) s = .next { t with held := t.held.map fun h => { h with request := .write w } })
      ∧ (¬TagWellFormed w n s → exec (.lineStart w) s = exec (.lineStart w) spent))

/-- R26, R28 to R31: in SEEKING a tag begins a lock; in LOCKING a tag that directly follows the last counts on, and any
other restarts the count at 1; in LOCKED a tag is a DUPLICATE, is accepted with its gap, or loses lock, by the two modular
gaps. The tag becomes the last tag but for a DUPLICATE. LOCK_COUNT is 2 to the power of its code. -/
def Obligations.LockRules : Prop :=
  (∀ (e : LaneEntry) (seq : Half) (pos : Count) (l : LaneTracker),
      let r := lockRule e seq pos l
      let count := 2 ^ e.lockCode
      let follows := (seq.toNat : Int) = ((l.lastSeq.toNat : Int) + 1) % 65536
        ∧ (pos.toNat : Int) = ((l.lastP.toNat : Int) + 1) % 4294967296
      let locked : LaneTracker :=
        { l with state := .locked, progress := 0, tagKnown := true, lastSeq := seq, lastP := pos }
      let locking (k : Nat) : LaneTracker :=
        { l with state := .locking, progress := k, tagKnown := true, lastSeq := seq, lastP := pos }
      (l.state = .seeking → r.raised = none ∧ (count = 1 → r.lane = locked ∧ r.accepted = true)
        ∧ (count ≠ 1 → r.lane = locking 1 ∧ r.accepted = false))
      ∧ (l.state = .locking → r.raised = none
        ∧ (follows → l.progress + 1 = count → r.lane = locked ∧ r.accepted = true)
        ∧ (follows → l.progress + 1 ≠ count → r.lane = locking (l.progress + 1) ∧ r.accepted = false)
        ∧ (¬follows → r.lane = locking 1 ∧ r.accepted = false)))
  ∧ (∀ (e : LaneEntry) (seq : Half) (pos : Count) (l : LaneTracker), l.state = .locked →
      let r := lockRule e seq pos l
      let gSeq : Int := ((seq.toNat : Int) - l.lastSeq.toNat - 1) % 65536
      let gPos : Int := ((pos.toNat : Int) - l.lastP.toNat - 1) % 4294967296
      let last : LaneTracker := { l with tagKnown := true, lastSeq := seq, lastP := pos }
      (32768 ≤ gSeq → r.lane = l ∧ r.accepted = false ∧ r.raised = some (.duplicate, .duplicate seq l.lastSeq))
      ∧ (gSeq < 32768 → gSeq = gPos → gSeq ≤ e.gapLimit →
          r.lane = last ∧ r.accepted = true ∧ (gSeq = 0 → r.raised = none)
            ∧ (gSeq ≠ 0 → r.raised = some (.seqGap, .seqGap seq (BitVec.ofInt 16 gSeq))))
      ∧ (gSeq < 32768 → ¬(gSeq = gPos ∧ gSeq ≤ e.gapLimit) →
          r.raised = some (.lockLost, .lockLost .gap seq pos (BitVec.ofInt 16 gSeq) (BitVec.ofInt 32 gPos))
            ∧ (2 ^ e.lockCode = 1 → r.lane = { last with progress := 0 } ∧ r.accepted = true)
            ∧ (2 ^ e.lockCode ≠ 1 → r.lane = { last with state := .locking, progress := 1 } ∧ r.accepted = false)))

/-- R22, R27 to R31: a well-formed line that its lock rule drops leaves the lane with the rule's lock and last tag and with
the line DISCARDING, or COMPLETE when the burst holds all of it; the latch that the rule raises, if any, is raised for the
lane, and no byte is written. The lane does not leave LOCKED here, or no frame is open, so no seal follows. The Report Unit
chooses at the end of the step (log 7). -/
def Obligations.DroppedLineIsDiscarded : Prop :=
  ∀ (w : FabricWrite) (n : Lane) (s : State), LineStarts w n s → Quiet s → NoInjection n s → NoLineInFlight n s →
    TagWellFormed w n s → (lockOf w n s).accepted = false →
    ((s.lanes[n].state = .locked → (lockOf w n s).lane.state = .locked) ∨ s.table.openFrames = []) →
    let dropped : State := { s with
      lanes := s.lanes.set n { (lockOf w n s).lane with
        context := contextAfterBurst ((windowData w n s).length - 16) (.discarding (lineOf w n s)) } }
    ((lockOf w n s).raised = none → exec (.lineStart w) s = .next (present dropped))
    ∧ ∀ k d, (lockOf w n s).raised = some (k, d) →
        exec (.lineStart w) s = .next (present (raise (laneLatch n k) d dropped))

/-- R32, R54, R55, R59, R69 to R72, R75, R77, R80, R81, R110, R112, R115 to R117, R177: an accepted line in RUNNING is
attributed, then evaluated as a mark; x is the state before that. (1) Inside the one open frame, at or past its lane's
cursor, it is TAKING: the record is updated, the gap recorded, its pixel bytes derived. (2) Inside one of several frames it
moves its lane on past every older one, and end-seen set in the oldest loads an idle seal timer. (3) In the next frame it
fixes the newest N and opens that frame, its slot FILLING or NO_SLOT raised. In (2) and (3) another lane still keeps the
oldest frame open. (4) With none awaited, the oldest frame seals by its lanes: it joins the queue, its cut lines are
DISCARDING, its slot goes READY or is handed on, the mark-lost count follows, and the timer turns to the next frame, which
this lane holds open. (5) In SINGLE mode a line beyond frame 0 is dropped, fixes N and moves its lane on; with another lane
awaited the timer is loaded. (6) With none awaited, frame 0 seals and the capture ends (logs 20, 21). The latch of the lock
rule is raised first; the mark comes after the seal (log 14), the Report Unit's choice last (log 7). -/
def Obligations.AcceptedLineIsTaken : Prop :=
  let answers (w : FabricWrite) (n : Lane) (s x : State) (frame : Count) (q : Nat) : Prop :=
    let t := readTag (windowData w n s)
    exec (.lineStart w) s = .next (present (evaluateMark n t.mark frame (q / s.livePlan.static.phases) x))
      ∧ (t.mark = false ∨ (s.entry n).markSource = false → exec (.lineStart w) s = .next (present x))
  let awaited (n : Lane) (s : State) (o : Frame) : Prop :=
    ∃ m : Lane, m ≠ n ∧ s.livePlan.run.laneEnable.getLsbD m.val = true ∧ s.lanes[m].state = .locked
      ∧ o.passed.getLsbD m.val = false
  (∀ (w : FabricWrite) (n : Lane) (s : State) (f : Frame) (c : Nat),
    AcceptedRunning w n s → PartOfLine w n s → (s.capture.mode = .continuous → s.reg.next ≠ none) →
    s.table.openFrames = [f] → f.cursors[n] = .expects c →
    let p := s.livePlan.static
    let d := (tagPosition w n s - f.start).toInt
    let q := d.toNat
    let place := placementOf p f.slot q
    (c : Int) ≤ d → d < ((f.rows * p.phases : Nat) : Int) →
    ∃ (x : State) (g : Frame), answers w n s x f.number q
      ∧ x = { s with
          lanes := s.lanesTaking w n f.number q place
          table := { s.table with openFrames := [g] }
          reg := x.reg
          report := (s.lockRaised w n).report
          held := s.heldTaking w n f.number place }
      ∧ LineCounted p n c q (readTag (windowData w n s)).time f g ∧ RowsFollow True (q / p.phases) f g s x)
  ∧ (∀ (w : FabricWrite) (n : Lane) (s : State) (o f : Frame) (mid younger : List Frame) (c : Nat),
    AcceptedRunning w n s → PartOfLine w n s → s.capture.mode = .continuous → s.reg.next ≠ none →
    let older := o :: mid
    s.table.openFrames = older ++ f :: younger → f.cursors[n] = .expects c → (∀ h ∈ older, h.number ≠ f.number) →
    Awaited (some n) s o →
    let p := s.livePlan.static
    let extent : Nat := (older.map fun h => h.rows * p.phases).sum
    let d := (tagPosition w n s - o.start).toInt
    let q := d.toNat - extent
    let place := placementOf p f.slot q
    ((extent + c : Nat) : Int) ≤ d → d < ((extent + f.rows * p.phases : Nat) : Int) →
    ∃ (x : State) (passed : List Frame) (o' g : Frame), answers w n s x f.number q
      ∧ x = { s with
          lanes := s.lanesTaking w n f.number q place
          table := { s.table with
            openFrames := passed ++ g :: younger
            sealTimer := timerOnceSeen o.endSeen s.livePlan.run o' s.table.sealTimer }
          reg := x.reg
          report := (s.lockRaised w n).report
          held := s.heldTaking w n f.number place }
      ∧ passed.length = older.length ∧ passed.head? = some o'
      ∧ (∀ (i : Nat) (h : Frame), older[i]? = some h → ∃ h', passed[i]? = some h' ∧ PassedBy p n h h')
      ∧ LineCounted p n c q (readTag (windowData w n s)).time f g ∧ RowsFollow (younger = []) (q / p.phases) f g s x)
  ∧ (∀ (w : FabricWrite) (n : Lane) (s : State) (b : Boundary),
    AcceptedRunning w n s → PartOfLine w n s → s.capture.mode = .continuous → s.reg.next = some b →
    let fs := s.table.openFrames
    fs.length < 4 → (∀ h ∈ fs, h.number ≠ b.frame) → (∀ o rest, fs = o :: rest → awaited n s o) →
    let p := s.livePlan.static
    let base := match fs with | [] => b.start | o :: _ => o.start
    let extent : Nat := (fs.map fun h => h.rows * p.phases).sum
    let next : Nat := (b.residue + p.repeatLen) / 65536 * p.phases
    let d := (tagPosition w n s - base).toInt
    let q := d.toNat - extent
    let slot := findFreeSlot p.slots s.table
    let place := placementOf p slot q
    (extent : Int) ≤ d → d < ((extent + next : Nat) : Int) →
    ∃ (x : State) (passed : List Frame) (g : Frame), answers w n s x b.frame q
      ∧ x = { s with
          lanes := s.lanesTaking w n b.frame q place
          table := { s.table with
            openFrames := passed ++ [g]
            slots := match slot with | none => s.table.slots | some k => s.table.slots.set k .filling
            lastAllocated := match slot with | none => s.table.lastAllocated | some k => some k
            sealTimer := x.table.sealTimer }
          reg := { s.reg with correction := 0, next := x.reg.next }
          report := (match slot with
            | none => raise 50 (.noSlot b.frame) (s.lockRaised w n)
            | some _ => s.lockRaised w n).report
          held := s.heldTaking w n b.frame place }
      ∧ passed.length = fs.length
      ∧ (∀ (i : Nat) (h : Frame), fs[i]? = some h → ∃ h', passed[i]? = some h'
          ∧ PassedBy p n { h with fixed := h.fixed || decide (i + 1 = fs.length) } h')
      ∧ g = { number := b.frame, slot := slot, start := b.start, residue := b.residue, rows := g.rows, fixed := false,
              correction := b.correction, clamped := b.clamped, hi := some (q / p.phases),
              cursors := (Vector.replicate 8 (.expects 0)).set n (.expects (q + 1)), passed := 0,
              delivered := 1#8 <<< n.val, markTaken := false, endSeen := false,
              firstTime := some (readTag (windowData w n s)).time, missing := q, damaged := 0,
              runs := if q = 0 then [] else [{ lane := n, first := 0, count := q }], overflow := false }
      ∧ RowsOnOpening s.livePlan b g x.reg.next
      ∧ (fs = [] → x.table.sealTimer = s.table.sealTimer)
      ∧ ∀ o o', fs.head? = some o → passed.head? = some o' →
          x.table.sealTimer = timerOnceSeen o.endSeen s.livePlan.run o' s.table.sealTimer)
  ∧ (∀ (w : FabricWrite) (n : Lane) (s : State) (o f : Frame) (younger : List Frame) (c : Nat) (k : Fin 32),
    AcceptedRunning w n s → PartOfLine w n s → s.capture.mode = .continuous → s.reg.next ≠ none →
    s.table.openFrames = o :: f :: younger → f.cursors[n] = .expects c → f.number ≠ o.number →
    o.fixed = true → o.slot = some k → (∀ e, .slot e ∈ s.table.queue → e.slot ≠ k) →
    (o.cursors[n] = .closed → o.passed.getLsbD n.val = true) → ¬awaited n s o →
    s.livePlan.run.laneEnable.getLsbD n.val = true → f.passed.getLsbD n.val = false →
    let p := s.livePlan.static
    let extent : Nat := o.rows * p.phases
    let d := (tagPosition w n s - o.start).toInt
    let q := d.toNat - extent
    let place := placementOf p f.slot q
    let lanes := s.lanesTaking w n f.number q place
    ((extent + c : Nat) : Int) ≤ d → d < ((extent + f.rows * p.phases : Nat) : Int) →
    ∃ (x : State) (o' g : Frame) (e : SlotEntry), answers w n s x f.number q
      ∧ x = { s with
          lanes := x.lanes
          table := { s.table with
            openFrames := g :: younger
            slots := s.table.slots.set k x.table.slots[k]
            sealTimer := x.table.sealTimer
            queue := s.table.queue ++ [.slot e] }
          patch := x.patch
          reg := x.reg
          report := (countMarkLost o (s.lockRaised w n)).report
          held := s.heldTaking w n f.number place }
      ∧ PassedBy p n o o' ∧ LineCounted p n c q (readTag (windowData w n s)).time f g
      ∧ SealedEntry s.livePlan (lanesStatus s.livePlan o') (s.cutsInto o.number) o' e
      ∧ HandedOn s.livePlan o' e x.table.slots[k] s.patch x.patch
      ∧ (∀ (m : Lane) (l : LineExtent) (i : Nat) (pl : Placement), lanes[m].context = .taking l o.number i pl →
          x.lanes[m] = { lanes[m] with context := .discarding l })
      ∧ (∀ m : Lane, lanes[m].context.takingInto o.number = false → x.lanes[m] = lanes[m])
      ∧ (s.table.sealTimer = .idle ∨ (∃ r, s.table.sealTimer = .running o.number r) →
          x.table.sealTimer = timerOnceSeen false s.livePlan.run g .idle)
      ∧ x.reg.markLost = (if o.markTaken then s.reg.markLost else min 255 (s.reg.markLost + 1))
      ∧ RowsFollow (younger = []) (q / p.phases) f g s { x with reg := { x.reg with markLost := s.reg.markLost } })
  ∧ (∀ (w : FabricWrite) (n : Lane) (s : State) (f : Frame), AcceptedRunning w n s → s.capture.mode = .single →
    s.table.openFrames = [f] →
    let p := s.livePlan.static
    ((f.rows * p.phases : Nat) : Int) ≤ (tagPosition w n s - f.start).toInt →
    let beyond (h g : Frame) : Prop := PassedBy p n { f with fixed := true } h ∧ g = { h with endSeen := true }
    (awaited n s f →
      ∃ (u : State) (h g : Frame), exec (.lineStart w) s = .next u ∧ beyond h g ∧ u.table.openFrames = [g]
        ∧ u.lanes = s.lanes.set n { (lockOf w n s).lane with
            context := contextAfterBurst ((windowData w n s).length - 16) (.discarding (lineOf w n s)) }
        ∧ u.table.sealTimer = timerOnceSeen f.endSeen s.livePlan.run g s.table.sealTimer
        ∧ u.table.queue = s.table.queue ∧ u.table.slots = s.table.slots ∧ u.held = none ∧ u.capture = s.capture
        ∧ (f.fixed = false → u.reg.correction = 0 ∧ u.reg.next = s.reg.next.map fun b => { b with fixed := true })
        ∧ (f.fixed = true → u.reg = s.reg))
    ∧ ∀ k : Fin 32, f.slot = some k → (∀ e, .slot e ∈ s.table.queue → e.slot ≠ k) →
      (s.livePlan.run.laneEnable.getLsbD n.val = true → f.cursors[n] = .closed → f.passed.getLsbD n.val = true) →
      ¬awaited n s f →
      ∃ (u : State) (h g : Frame) (e : SlotEntry), exec (.lineStart w) s = .next u ∧ beyond h g
        ∧ u.table.openFrames = [] ∧ u.table.queue = s.table.queue ++ [.slot e]
        ∧ (s.table.sealTimer = .idle ∨ (∃ r, s.table.sealTimer = .running f.number r) → u.table.sealTimer = .idle)
        ∧ SealedEntry s.livePlan (lanesStatus s.livePlan g) (s.cutsInto f.number) g e
        ∧ HandedOn s.livePlan g e u.table.slots[k] s.patch u.patch
        ∧ u.lanes = lanesAllOff true (s.lanes.set n (lockOf w n s).lane) ∧ u.held = none ∧ SingleEnded s u)

/-- R33, R70, R71, R73: in RUNNING an accepted line behind the one open frame, which is not frame 0, or in it behind its
lane's cursor or with that cursor closed, is LATE: dropped with the latch raised, and no frame record changes. One at or
beyond the end of the next frame is far ahead: LOCK_LOST with cause AHEAD, the lane LOCKING with progress 1 or, with a lock
of one line, SEEKING with the last tag unknown; no record changes (the row count is provisional, so no seal follows). In
both, a latch that the lock rule raised for the line is raised before. An unknown last tag has the values of reset (log 13);
the context with a lock of one line is log 12, and frame 0 after 2^32 frames is log 29. The Report Unit
chooses at the end of the step (log 7). -/
def Obligations.LateAndFarAheadLines : Prop :=
  (∀ (w : FabricWrite) (n : Lane) (s : State) (f : Frame) (b : Boundary),
      LineStarts w n s → Quiet s → NoInjection n s → NoLineInFlight n s → TagWellFormed w n s →
      (lockOf w n s).accepted = true → s.capture.device = .running → s.capture.mode = .continuous →
      s.table.openFrames = [f] → s.reg.next = some b →
      let t := readTag (windowData w n s)
      let d := (tagPosition w n s - f.start).toInt
      ((d < 0 ∧ f.number ≠ 0)
        ∨ (0 ≤ d ∧ d < ((f.rows * s.livePlan.static.phases : Nat) : Int)
            ∧ (f.cursors[n] = .closed ∨ ∃ c, f.cursors[n] = .expects c ∧ d < (c : Int)))) →
      let dropped : State := { s with
        lanes := s.lanes.set n { (lockOf w n s).lane with
          context := contextAfterBurst ((windowData w n s).length - 16) (.discarding (lineOf w n s)) } }
      let answers (x : State) : Prop :=
        exec (.lineStart w) s = .next (present (raise (laneLatch n .late) (.late t.seq (tagPosition w n s)) x))
      ((lockOf w n s).raised = none → answers dropped)
      ∧ ∀ k d, (lockOf w n s).raised = some (k, d) → answers (raise (laneLatch n k) d dropped))
  ∧ (∀ (w : FabricWrite) (n : Lane) (s : State) (f : Frame) (b : Boundary),
      LineStarts w n s → Quiet s → NoInjection n s → NoLineInFlight n s → TagWellFormed w n s →
      (lockOf w n s).accepted = true → s.capture.device = .running → s.capture.mode = .continuous →
      s.table.openFrames = [f] → f.fixed = false → s.reg.next = some b →
      let t := readTag (windowData w n s)
      let p := s.livePlan.static
      let r := lockOf w n s
      let d := (tagPosition w n s - f.start).toInt
      ((f.rows * p.phases + (b.residue + p.repeatLen) / 65536 * p.phases : Nat) : Int) ≤ d →
      let lane : LaneTracker :=
        if 2 ^ (s.entry n).lockCode = 1 then
          { r.lane with state := .seeking, progress := 0, tagKnown := false, lastSeq := 0, lastP := 0 }
        else { r.lane with state := .locking, progress := 1 }
      let dropped : State := { s with
        lanes := s.lanes.set n { lane with
          context := contextAfterBurst ((windowData w n s).length - 16) (.discarding (lineOf w n s)) } }
      let answers (x : State) : Prop :=
        exec (.lineStart w) s = .next (present
          (raise (laneLatch n .lockLost) (.lockLost .ahead t.seq (tagPosition w n s) r.gSeq r.gPos) x))
      (r.raised = none → answers dropped)
      ∧ ∀ k d, r.raised = some (k, d) → answers (raise (laneLatch n k) d dropped))

/-- R32, R45 to R49, R53, R174: in ARMED, an accepted line is a candidate origin. In FREE origin mode every one qualifies,
at its own phase in row 0 with residue b; in MARK origin mode a mark of a MARK_SOURCE lane whose mark row is not FRAME_ROWS,
at that row, with the residue of R47, and frame 0's mark-taken flag set by it. The line sets the origin at its position less
that relative position, opens frame 0 with the first FREE slot, moves the device to RUNNING with an ORIGIN notice, and is
TAKING in frame 0, whose N and next boundary are those of a pending correction of 0. Any other candidate is DISCARDING: no
origin is set and nothing else changes but what the lock rule raised. The Report Unit chooses at the end of the step (log
7); the line that sets the origin is placed without the test of R71 (log 26). -/
def Obligations.FreeOriginOpensFrameZero : Prop :=
  ∀ (w : FabricWrite) (n : Lane) (s : State),
    LineStarts w n s → Quiet s → NoInjection n s → NoLineInFlight n s → TagWellFormed w n s →
    (lockOf w n s).accepted = true → s.capture.device = .armed → s.table.openFrames = [] →
    let t := readTag (windowData w n s)
    let p := s.livePlan.static
    let phase := (t.enc.toNat + p.phaseRot) % p.phases
    let whole := p.markOffset / 65536
    let frac := p.markOffset % 65536
    let row := if frac ≤ p.roundBias then whole else whole + 1
    let residue := if frac ≤ p.roundBias then p.roundBias - frac else p.roundBias + 65536 - frac
    let slot := findFreeSlot p.slots s.table
    let opens (q residue : Nat) (marked : Bool) : Prop :=
      let origin := tagPosition w n s - BitVec.ofNat 32 q
      ∃ (u : State) (g : Frame) (b : Boundary), exec (.lineStart w) s = .next u
        ∧ u.capture = { s.capture with device := .running }
        ∧ u.reg = { s.reg with origin := some origin, correction := 0, next := some b }
        ∧ RowsOnOpening s.livePlan (originBoundary origin residue) g (some b)
        ∧ u.table.openFrames = [g] ∧ g.number = 0 ∧ g.start = origin ∧ g.residue = residue ∧ g.correction = 0
        ∧ g.clamped = false ∧ g.fixed = false ∧ g.slot = slot ∧ g.hi = some (q / p.phases)
        ∧ g.delivered = 1#8 <<< n.val ∧ g.firstTime = some t.time ∧ g.markTaken = marked ∧ g.missing = q ∧ g.damaged = 0
        ∧ g.runs = (if q = 0 then [] else [{ lane := n, first := 0, count := q }]) ∧ g.overflow = false
        ∧ g.cursors = (Vector.replicate 8 (.expects 0)).set n (.expects (q + 1))
        ∧ (∀ k, slot = some k → u.table.slots = s.table.slots.set k .filling ∧ u.table.lastAllocated = some k)
        ∧ (slot = none → u.table.slots = s.table.slots ∧ u.table.lastAllocated = s.table.lastAllocated)
        ∧ u.lanes = s.lanes.set n { (lockOf w n s).lane with
            context := .taking { lineOf w n s with expected := windowOffset w n s + (windowData w n s).length }
              0 q (placementOf p slot q) }
        ∧ u.report.stateNotice = some { device := .running, cause := .origin, generation := s.plan.generation,
                                        origin := some origin }
        ∧ u.plan = s.plan ∧ u.patch = s.patch ∧ u.memStream = s.memStream ∧ u.table.queue = s.table.queue
    let partOfLine := (windowData w n s).length < 16 + t.pix * p.pixelBytes
    let dropped : State := { s with
      lanes := s.lanes.set n { (lockOf w n s).lane with
        context := contextAfterBurst ((windowData w n s).length - 16) (.discarding (lineOf w n s)) } }
    (s.reg.mode = .free → (t.mark = false ∨ (s.entry n).markSource = false) → partOfLine → opens phase p.roundBias false)
    ∧ (s.reg.mode = .mark → t.mark = true → (s.entry n).markSource = true → row ≠ p.frameRows → partOfLine →
        opens (phase + row * p.phases) residue true)
    ∧ (s.reg.mode = .mark → (t.mark = false ∨ (s.entry n).markSource = false ∨ row = p.frameRows) →
        ((lockOf w n s).raised = none → exec (.lineStart w) s = .next (present dropped))
        ∧ ∀ k d, (lockOf w n s).raised = some (k, d) →
            exec (.lineStart w) s = .next (present (raise (laneLatch n k) d dropped)))

/-- R23, R96: a continuation in place of a TAKING or DISCARDING line advances the expected next offset by its line bytes;
with the line end reached the context is COMPLETE. A TAKING line derives its writes, a DISCARDING line none. Nothing else
changes. -/
def Obligations.BurstInPlaceAdvancesTheLine : Prop :=
  ∀ (w : FabricWrite) (n : Lane) (s : State) (x : LineExtent), Continues w n s → Quiet s →
    burstSlot w n s = x.slot → windowOffset w n s = x.expected →
    let k := min (windowData w n s).length (x.lineEnd - x.expected)
    let x' : LineExtent := { x with expected := x.expected + k }
    (∀ f q place, s.lanes[n].context = .taking x f q place →
      exec (.continuation w) s = .next { s with
        lanes := s.lanes.set n { s.lanes[n] with
          context := if x.lineEnd ≤ x.expected + k then .complete x' else .taking x' f q place }
        held := heldFor w (some n) (takingWrites s.livePlan.static n x f place (windowData w n s)) })
    ∧ (s.lanes[n].context = .discarding x →
      exec (.continuation w) s = .next { s with
        lanes := s.lanes.set n { s.lanes[n] with
          context := if x.lineEnd ≤ x.expected + k then .complete x' else .discarding x' } })

/-- R24, R34: a continuation fault. In a TAKING or DISCARDING line OFFSET is a continuation of its slot that is not at the
expected next offset, and ORPHAN one of another slot; with context NONE every continuation is ORPHAN. MALFORMED is raised,
the context becomes SINKING with the burst's slot (log 19) and the bytes are sunk (a burst of another slot is ORPHAN
whatever its offset: log 22). A TAKING line is cut: 1, up to 65535, is added to the damaged count of its frame, and the cut
changes nothing else. The Report Unit chooses at the end of the step (log 7). -/
def Obligations.ContinuationFaultCutsTheLine : Prop :=
  (∀ (w : FabricWrite) (n : Lane) (s : State), Continues w n s → Quiet s →
      let slot := burstSlot w n s
      let off := windowOffset w n s
      let fault (code : Nat) : Prop :=
        exec (.continuation w) s = .next (present
          { raise (laneLatch n .malformed) (.malformed code off) (cutLine n s) with
            lanes := s.lanes.set n { s.lanes[n] with context := .sinking slot }
            held := heldFor w (some n) (sunk w n s) })
      (s.lanes[n].context = .none → fault 8)
      ∧ (∀ x, ((∃ f q place, s.lanes[n].context = .taking x f q place) ∨ s.lanes[n].context = .discarding x) →
          (slot ≠ x.slot → fault 8) ∧ (slot = x.slot → off ≠ x.expected → fault 7))
      ∧ ∀ x, s.lanes[n].context = .complete x →
          (slot ≠ x.slot → fault 8) ∧ (slot = x.slot → off < x.lineEnd → fault 7))
  ∧ (∀ (n : Lane) (s : State),
      (NoLineInFlight n s → cutLine n s = s)
      ∧ ∀ x f q place, s.lanes[n].context = .taking x f q place →
          ∃ fs, cutLine n s = { s with table := { s.table with openFrames := fs } }
            ∧ fs.length = s.table.openFrames.length
            ∧ ∀ (i : Nat) (g : Frame), s.table.openFrames[i]? = some g →
                fs[i]? = some (if g.number = f then { g with damaged := min 65535 (g.damaged + 1) } else g))

/-- R25, R39: a continuation past the end of a COMPLETE line of its slot is dropped; one in context SINKING is sunk; one in
the set-aside slot is dropped with mode ABSORB, and rejected and sunk with mode REJECT. None of them raises MALFORMED or
changes the lane. The Report Unit chooses at the end of the step (log 7). -/
def Obligations.QuietContinuations : Prop :=
  ∀ (w : FabricWrite) (n : Lane) (s : State), Quiet s →
    (∀ x, Continues w n s → s.lanes[n].context = .complete x → burstSlot w n s = x.slot →
      x.lineEnd ≤ windowOffset w n s → exec (.continuation w) s = .next s)
    ∧ (∀ k, Continues w n s → s.lanes[n].context = .sinking k →
      exec (.continuation w) s = .next { s with held := heldFor w (some n) (sunk w n s) })
    ∧ (Passes w n s → windowOffset w n s % (s.entry n).winStride ≠ 0 →
      (s.lanes[n].setAside = some { slot := burstSlot w n s, mode := .absorb } → exec (.continuation w) s = .next s)
      ∧ (s.lanes[n].setAside = some { slot := burstSlot w n s, mode := .reject } →
        exec (.continuation w) s = .next (present
          { raise (laneLatch n .tagReject) (.tagReject w.tag (windowOffset w n s)) s with
            held := heldFor w (some n) (sunk w n s) })))

/-! ### Steering -/

/-- R99, with R98, R101: the line bytes of a burst in place, those before the line end, hold the pixel byte indices b1 to b2
− 1, and the steered bytes are those in the crop. A TAKING line with placement WRITE derives one destination write of them,
unchanged and in order, when there are any, and then its padding when the burst brings its last byte; with placement NONE,
or in any other context, nothing is derived. -/
def Obligations.DestinationWrite : Prop :=
  ∀ (p : StaticPlan) (n : Lane) (x : LineExtent) (frame : Count) (q : Nat) (bytes : List Byte),
    let e := p.lanes[n]
    let origin := x.slot * e.winStride + 16
    let k := min bytes.length (x.lineEnd - x.expected)
    let b1 := x.expected - origin
    let s1 := max b1 (e.cropFirst * p.pixelBytes)
    let s2 := min (b1 + k) ((e.cropFirst + e.keep) * p.pixelBytes)
    (∀ (plane : Fin 4) (row : Nat),
      let writes := writesOfBurst p n bytes (.taking x frame q (.write plane row))
      let pads : List Derived :=
        if x.lineEnd ≤ x.expected + k then
          (linePadding p n plane row ((x.lineEnd - origin) / p.pixelBytes)).map fun r => { kind := .steer frame, req := r }
        else []
      (s2 ≤ s1 → writes = pads)
      ∧ (s1 < s2 → ∃ data,
          writes = { kind := .steer frame,
                     req := .write (row + e.xOffset + (s1 - e.cropFirst * p.pixelBytes)) 0 data } :: pads
          ∧ data.length = s2 - s1 ∧ ∀ i, i < s2 - s1 → data[i]? = bytes[s1 - b1 + i]?))
    ∧ writesOfBurst p n bytes (.taking x frame q .none) = []
    ∧ writesOfBurst p n bytes (.discarding x) = [] ∧ writesOfBurst p n bytes (.complete x) = []
    ∧ writesOfBurst p n bytes .none = [] ∧ ∀ slot, writesOfBurst p n bytes (.sinking slot) = []

/-- R101, R102: the padding of a line covers the rest of the lane's segment from pixel x0 on, in address order, in writes of
256 bytes but for the last; each padded byte is the low byte of FILL_VALUE, or, with two-byte pixels, the low byte and the
high byte in turn. -/
def Obligations.PaddingCoversTheSegment : Prop :=
  ∀ (p : StaticPlan) (n : Lane) (plane : Fin 4) (row pix : Nat),
    let e := p.lanes[n]
    let x0 := max pix e.cropFirst
    let first := row + e.xOffset + (x0 - e.cropFirst) * p.pixelBytes
    let len := (e.cropFirst + e.keep - x0) * p.pixelBytes
    let writes := linePadding p n plane row pix
    writes.length = (len + 255) / 256
      ∧ ∀ i, i < len → ∃ data,
          writes[i / 256]? = some (.write (first + 256 * (i / 256)) 0 data)
            ∧ data.length = min 256 (len - 256 * (i / 256))
            ∧ data[i % 256]? = some (if p.pixelBytes = 2 ∧ i % 2 = 1 then BitVec.ofNat 8 (p.planes[plane].fill / 256)
                else BitVec.ofNat 8 p.planes[plane].fill)

/-- R91, R92, R95, R96, R130: the plane of a phase is the phase-map entry of that number, when it is 0 to 3. A line's
placement: NONE in a DISCARD phase and without a slot; else its row is kept when its bit of KEEP_MASK is set, and its kept
index is the number of kept rows above it in the frame. A position of a run fills the segment that a line there would be
written to, and fills nothing where a line would not be written. -/
def Obligations.PlacementFollowsKeepMask : Prop :=
  (∀ (p : StaticPlan) (phase : Nat) (plane : Fin 4),
      p.planeOfPhase phase = some plane ↔ ∃ i : Fin 4, i.val = phase ∧ p.phaseMap[i] = plane.val)
  ∧ (∀ (p : StaticPlan) (k : Fin 32) (q : Nat) (plane : Fin 4), p.planeOfPhase (q % p.phases) = some plane →
      let e := p.planes[plane]
      let i := q / p.phases
      e.keepMask < 256 →
      (e.keepMask.testBit (i % 8) = false → placementOf p (some k) q = .none)
      ∧ (e.keepMask.testBit (i % 8) = true →
          placementOf p (some k) q = .write plane
            (e.base + k.val * e.stride + ((List.range i).filter fun j => e.keepMask.testBit (j % 8)).length * e.pitch))
      ∧ placementOf p none q = .none)
  ∧ (∀ (p : StaticPlan) (slot : Option (Fin 32)) (q : Nat), p.planeOfPhase (q % p.phases) = none →
      placementOf p slot q = .none)
  ∧ (∀ (p : StaticPlan) (slot : Fin 32) (n : Lane) (q : Nat),
      fillTarget p slot n q = (match placementOf p (some slot) q with
        | .none => none
        | .write plane row => some (plane, row + p.lanes[n].xOffset)))

/-! ### Registration -/

/-- R50 to R53, R58: under the ranges that plan checks 3 and 4 keep, and with the highest row so far below FRAME_ROWS: the
clamped correction is at least −MARK_MAX_STEP, the row count it gives is above the highest row, at most FRAME_ROWS and at
least 8, and a pending correction within every bound is applied as it is; the correction is clamped to lo and hi of R52, and
N = floor((ρ + L + c) / 65536). With S the exact start of a frame in fine units from the origin O, so that the frame starts
at O + F × floor((S + b) / 65536) with residue (S + b) mod 65536, the next boundary is that of the exact start S + L + c. -/
def Obligations.RowCountsAndBoundaries : Prop :=
  (∀ (p : Plan) (pending : Int) (f : Frame), check3 p = true → check4 p = true → f.residue ≤ 65535 →
      (∀ h, f.hi = some h → h < p.static.frameRows) →
      let c := corrClamped p pending f
      let n := provisionalRows p pending f
      let t : Int := f.residue + p.static.repeatLen + pending
      let span : Int := f.residue + p.static.repeatLen
      let row : Int := match f.hi with | none => 1 | some h => h + 1
      let lo : Int := max (-(p.run.markMaxStep : Int)) (row * 65536 - span)
      let hi : Int := max lo (min (p.run.markMaxStep : Int) (((p.static.frameRows : Int) + 1) * 65536 - 1 - span))
      c = min (max pending lo) hi ∧ (n : Int) = (span + c) / 65536
        ∧ (∀ h, f.hi = some h → h < n) ∧ 8 ≤ n ∧ n ≤ p.static.frameRows ∧ -(p.run.markMaxStep : Int) ≤ c
        ∧ (-(p.run.markMaxStep : Int) ≤ pending → pending ≤ p.run.markMaxStep →
            t < ((p.static.frameRows : Int) + 1) * 65536 → 65536 ≤ t →
            (∀ h, f.hi = some h → ((h : Int) + 1) * 65536 ≤ t) → c = pending))
  ∧ (∀ (p : Plan) (pending : Int) (f : Frame) (origin : Count) (exact : Int), check3 p = true → check4 p = true →
      f.residue ≤ 65535 → (∀ h, f.hi = some h → h < p.static.frameRows) →
      f.start = origin + BitVec.ofInt 32 (p.static.phases * ((exact + p.static.roundBias) / 65536)) →
      (f.residue : Int) = (exact + p.static.roundBias) % 65536 →
      let b := nextBoundary p pending f
      let next := exact + p.static.repeatLen + b.correction
      b.frame = f.number + 1
        ∧ b.start = origin + BitVec.ofInt 32 (p.static.phases * ((next + p.static.roundBias) / 65536))
        ∧ (b.residue : Int) = (next + p.static.roundBias) % 65536
        ∧ (b.clamped = true ↔ b.correction ≠ pending))

/-- R47, R48, R60: the mark row and the residue of MARK origin mode put the mark exactly where MARK_OFFSET says, so its own
error is 0; a mark row equal to FRAME_ROWS, a line that is no mark, and a lane without MARK_SOURCE do not qualify. -/
def Obligations.MarkOriginHasNoError : Prop :=
  ∀ (p : Plan) (n : Lane) (enc : Count) (mark : Bool), p.static.roundBias ≤ 65535 →
    let row := (markOrigin p.static).1
    let residue := (markOrigin p.static).2
    markError p.static residue row = 0 ∧ residue ≤ 65535
      ∧ (row = p.static.markOffset / 65536 ∨ row = p.static.markOffset / 65536 + 1)
      ∧ candidate p .mark n enc mark =
          (if mark = true ∧ p.static.lanes[n].markSource = true ∧ row ≠ p.static.frameRows then
            some ((enc.toNat + p.static.phaseRot) % p.static.phases + row * p.static.phases, residue)
          else none)

/-- R54, R59 to R62, R64, R65: a mark of a MARK_SOURCE lane in a frame without one, in RUNNING: outside the window
MARK_WINDOW is raised and nothing else changes; inside it the error, divided by 2^g truncated toward zero and limited to
±MARK_MAX_STEP, becomes the pending correction, the mark-lost count becomes 0, the frame's flag is set, and N of the newest
open frame, while provisional, and the next boundary are recomputed with the new correction. Any other line changes nothing.
A seal of a frame without a mark adds 1, up to 255, to the mark-lost count and raises MARK_LOST at or above a limit that is
not 0; a frame with a mark leaves both. That a seal also counts, and raises, while the count already stands at 255 is the
model's choice (log 27). -/
def Obligations.MarksAndLostMarks : Prop :=
  (∀ (n : Lane) (mark : Bool) (frame : Count) (row : Nat) (s : State) (f : Frame), s.frameOf frame = some f →
      let p := s.livePlan
      let e : Int := (row : Int) * 65536 - ((p.static.markOffset : Int) + f.residue - p.static.roundBias)
      let marks := s.capture.device = .running ∧ mark = true ∧ p.static.lanes[n].markSource = true ∧ f.markTaken = false
      let t := evaluateMark n mark frame row s
      (¬marks → t = s)
      ∧ (marks → (p.run.markWindow * 65536 : Int) < |e| → t = raise 48 (.markWindow frame n row e) s)
      ∧ (marks → |e| ≤ (p.run.markWindow * 65536 : Int) →
          t.reg.correction
              = max (-(p.run.markMaxStep : Int)) (min (p.run.markMaxStep : Int) (e.tdiv (2 ^ p.run.markGain)))
            ∧ t.reg.markLost = 0 ∧ t.reg.origin = s.reg.origin ∧ t.report = s.report
            ∧ (∃ g, t.frameOf frame = some g ∧ g.markTaken = true)
            ∧ (∀ older o, s.table.openFrames = older ++ [o] →
                let marked (g : Frame) : Frame := if g.number = frame then { g with markTaken := true } else g
                (o.fixed = false → t.table.openFrames
                      = older.map marked ++ [{ marked o with rows := provisionalRows p t.reg.correction o }]
                    ∧ t.reg.next = some (nextBoundary p t.reg.correction o))
                ∧ (o.fixed = true → t.table.openFrames = older.map marked ++ [marked o] ∧ t.reg.next = s.reg.next))
            ∧ t.lanes = s.lanes ∧ t.table.queue = s.table.queue ∧ t.table.slots = s.table.slots))
  ∧ (∀ (f : Frame) (s : State),
      let count := min 255 (s.reg.markLost + 1)
      let limit := s.livePlan.run.markLostLimit
      let counted : State := { s with reg := { s.reg with markLost := count } }
      (f.markTaken = true → countMarkLost f s = s)
      ∧ (f.markTaken = false → (limit = 0 ∨ count < limit) → countMarkLost f s = counted)
      ∧ (f.markTaken = false → limit ≠ 0 → limit ≤ count →
          countMarkLost f s = raise 49 (.markLost f.number count) counted))

/-! ### The Frame Table -/

/-- R69 to R75, R80, R81, R112: attribution. In CONTINUOUS mode by the distance d from the oldest start, or from the next
boundary with no frame open: far ahead at or past the end of the next frame; behind, LATE, or pre-origin while frame 0 is
the oldest (log 29); just past the open frames, placed in the next frame at d − E; else in the open frame whose extent holds it, at
its own position, or LATE by its lane's cursor. A dropped line changes nothing. A placed line is counted in its frame, moves
its lane on past every older open frame, and leaves the younger ones; end-seen set in the oldest loads an idle seal timer; N
and the next boundary follow R54 and R55. In SINGLE mode, by the distance from frame 0 alone: behind, pre-origin; inside, as
above; at or past its end, beyond, with N fixed and the lane moved on past frame 0. -/
def Obligations.LinesAreAttributed : Prop :=
  (∀ (n : Lane) (line : Line) (s : State) (b : Boundary) (base : Count), s.reg.next = some b →
    let p := s.livePlan.static
    let fs := s.table.openFrames
    (fs = [] → base = b.start) → (∀ f rest, fs = f :: rest → base = f.start) →
    let extent (l : List Frame) : Nat := (l.map fun f => f.rows * p.phases).sum
    let next := (b.residue + p.repeatLen) / 65536 * p.phases
    let d := (line.pos - base).toInt
    let r := attributeContinuous n line s
    (d < 0 → r.2 = s ∧ ((∃ f rest, fs = f :: rest ∧ f.number = 0) → r.1 = .quiet)
        ∧ (¬(∃ f rest, fs = f :: rest ∧ f.number = 0) → r.1 = .late))
    ∧ (((extent fs + next : Nat) : Int) ≤ d → r = (.farAhead, s))
    ∧ ((extent fs : Int) ≤ d → d < ((extent fs + next : Nat) : Int) →
        (∃ i, r.1 = .placed i b.frame (d.toNat - extent fs) ∧ i + 1 = r.2.table.openFrames.length)
        ∧ (fs.length < 4 → ∃ passed g, r.2.table.openFrames = passed ++ [g] ∧ passed.length = fs.length
            ∧ (∀ (i : Nat) (f : Frame), fs[i]? = some f → ∃ h, passed[i]? = some h
                ∧ PassedBy p n { f with fixed := f.fixed || decide (i + 1 = fs.length) } h)
            ∧ g.number = b.frame ∧ g.start = b.start ∧ g.residue = b.residue ∧ g.fixed = false
            ∧ RowsOnOpening s.livePlan b g r.2.reg.next ∧ r.2.reg.correction = 0
            ∧ g.cursors = (Vector.replicate 8 (.expects 0)).set n (.expects (d.toNat - extent fs + 1))
            ∧ g.missing = d.toNat - extent fs ∧ g.delivered = 1#8 <<< n.val ∧ g.firstTime = some line.time
            ∧ ∀ o, passed.head? = some o → r.2.table.sealTimer
                = timerOnceSeen ((fs.head?.map Frame.endSeen).getD false) s.livePlan.run o s.table.sealTimer))
    ∧ ∀ older f younger, fs = older ++ f :: younger → (extent older : Int) ≤ d →
        d < ((extent older + f.rows * p.phases : Nat) : Int) →
        let q := d.toNat - extent older
        (∀ c, f.cursors[n] = .expects c → c ≤ q → r.1 = .placed older.length f.number q
          ∧ ∃ passed g, r.2.table.openFrames = passed ++ g :: younger ∧ passed.length = older.length
            ∧ (∀ (i : Nat) (h : Frame), older[i]? = some h → ∃ h', passed[i]? = some h' ∧ PassedBy p n h h')
            ∧ LineCounted p n c q line.time f g ∧ RowsFollow (younger = []) (q / p.phases) f g s r.2
            ∧ (passed = [] → r.2.table.sealTimer = s.table.sealTimer)
            ∧ (∀ o o', older.head? = some o → passed.head? = some o' →
                r.2.table.sealTimer = timerOnceSeen o.endSeen s.livePlan.run o' s.table.sealTimer)
            ∧ r.2.table.queue = s.table.queue ∧ r.2.table.slots = s.table.slots ∧ r.2.lanes = s.lanes
            ∧ r.2.report = s.report)
        ∧ (f.cursors[n] = .closed ∨ (∃ c, f.cursors[n] = .expects c ∧ q < c) → r = (.late, s)))
  ∧ (∀ (n : Lane) (line : Line) (s : State) (f : Frame), s.table.openFrames = [f] →
    let p := s.livePlan.static
    let d := (line.pos - f.start).toInt
    let r := attributeSingle n line s
    (d < 0 → r = (.quiet, s))
    ∧ (0 ≤ d → d < ((f.rows * p.phases : Nat) : Int) →
        (∀ c, f.cursors[n] = .expects c → (c : Int) ≤ d → r.1 = .placed 0 f.number d.toNat
          ∧ ∃ g, r.2.table.openFrames = [g] ∧ LineCounted p n c d.toNat line.time f g
            ∧ RowsFollow True (d.toNat / p.phases) f g s r.2 ∧ r.2.table.sealTimer = s.table.sealTimer)
        ∧ (f.cursors[n] = .closed ∨ (∃ c, f.cursors[n] = .expects c ∧ d < (c : Int)) → r = (.late, s)))
    ∧ (((f.rows * p.phases : Nat) : Int) ≤ d → r.1 = .beyond
        ∧ ∃ h g, PassedBy p n { f with fixed := true } h ∧ g = { h with endSeen := true } ∧ r.2.table.openFrames = [g]
          ∧ r.2.table.sealTimer = timerOnceSeen f.endSeen s.livePlan.run g s.table.sealTimer
          ∧ r.2.table.queue = s.table.queue ∧ r.2.table.slots = s.table.slots ∧ r.2.lanes = s.lanes
          ∧ r.2.report = s.report
          ∧ (f.fixed = false →
              r.2.reg = { s.reg with correction := 0, next := s.reg.next.map fun b => { b with fixed := true } })
          ∧ (f.fixed = true → r.2.reg = s.reg)))

/-- R53, R55, R77 to R79, R112, R118: the cyclic search takes the first FREE slot among 0 to SLOTS − 1 from the slot after
the last-allocated one, or from slot 0 while there is none, and finds none exactly when none of them is FREE. With fewer
than four frames open, a frame that opens joins the list at the newest end with the fields of R77, with N and the next
boundary of a pending correction of 0 (R53, R55), its slot FILLING and last allocated, or, with no FREE slot, slotless with
NO_SLOT raised. With four open, the oldest seals FORCED first: it joins the seal queue, its slot goes PATCHING or READY and
is not given to the new frame, and the seal timer is loaded for the frame that has become oldest when its end-seen flag is
set; that frame is awaited here, so no further seal follows. -/
def Obligations.FrameOpens : Prop :=
  (∀ (slots : Nat) (t : FrameTable), 1 ≤ slots → slots ≤ 32 →
      let first := match t.lastAllocated with | none => 0 | some k => k.val + 1
      let slotAt (i : Nat) : Fin 32 := Fin.ofNat 32 ((first + i) % slots)
      (∀ k, findFreeSlot slots t = some k →
        t.slots[k] = .free ∧ k.val < slots
          ∧ ∃ i, i < slots ∧ k = slotAt i ∧ ∀ j, j < i → t.slots[slotAt j] ≠ .free)
      ∧ (findFreeSlot slots t = none ↔ ∀ k : Fin 32, k.val < slots → t.slots[k] ≠ .free))
  ∧ (∀ (b : Boundary) (s : State), s.table.openFrames.length < 4 →
      let slot := findFreeSlot s.livePlan.static.slots s.table
      let t := openFrame b s
      (∃ g, t.table.openFrames = s.table.openFrames ++ [g] ∧ g.number = b.frame ∧ g.slot = slot ∧ g.start = b.start
        ∧ g.residue = b.residue ∧ g.correction = b.correction ∧ g.clamped = b.clamped ∧ g.fixed = false ∧ g.hi = none
        ∧ g.cursors = Vector.replicate 8 (.expects 0) ∧ g.passed = 0 ∧ g.delivered = 0 ∧ g.markTaken = false
        ∧ g.endSeen = false ∧ g.firstTime = none ∧ g.missing = 0 ∧ g.damaged = 0 ∧ g.runs = [] ∧ g.overflow = false
        ∧ RowsOnOpening s.livePlan b g t.reg.next)
      ∧ t.reg.correction = 0 ∧ t.table.queue = s.table.queue ∧ t.lanes = s.lanes ∧ t.capture = s.capture
      ∧ (∀ k, slot = some k →
          t.table.slots = s.table.slots.set k .filling ∧ t.table.lastAllocated = some k ∧ t.report = s.report)
      ∧ (slot = none → t.table.slots = s.table.slots ∧ t.table.lastAllocated = s.table.lastAllocated
          ∧ RaisedOnce 50 (.noSlot b.frame) s t))
  ∧ (∀ (b : Boundary) (s : State) (f o : Frame) (rest : List Frame) (k : Fin 32),
      s.table.openFrames = f :: o :: rest → 2 ≤ rest.length → s.capture.mode = .continuous →
      f.slot = some k → s.table.slots[k] = .filling → Awaited none s o →
      let slot := findFreeSlot s.livePlan.static.slots s.table
      let t := openFrame b s
      let patched := s.livePlan.run.patchEnable = true ∧ (f.closeAll s.livePlan).runs ≠ []
      ∃ e g, t.table.openFrames = o :: rest ++ [g] ∧ g.number = b.frame ∧ g.start = b.start ∧ g.slot = slot
        ∧ g.residue = b.residue ∧ g.fixed = false ∧ g.hi = none ∧ RowsOnOpening s.livePlan b g t.reg.next
        ∧ t.reg.correction = 0 ∧ g.slot ≠ some k ∧ t.table.queue = s.table.queue ++ [.slot e]
        ∧ SealedEntry s.livePlan .forced (s.cutsInto f.number) f e
        ∧ (patched → t.table.slots[k] = .patching ∧ e.patchList = some (f.closeAll s.livePlan).runs)
        ∧ (¬patched → t.table.slots[k] = .ready ∧ e.patchList = none)
        ∧ (∀ j, j ≠ k → slot ≠ some j → t.table.slots[j] = s.table.slots[j])
        ∧ (∀ j, slot = some j → t.table.slots[j] = .filling ∧ t.table.lastAllocated = some j)
        ∧ (∀ n : Lane, ∀ x q place, s.lanes[n].context = .taking x f.number q place →
            t.lanes[n] = { s.lanes[n] with context := .discarding x })
        ∧ (∀ n : Lane, s.lanes[n].context.takingInto f.number = false → t.lanes[n] = s.lanes[n])
        ∧ (s.table.sealTimer = .idle ∨ (∃ r, s.table.sealTimer = .running f.number r) →
            t.table.sealTimer = timerOnceSeen false s.livePlan.run o .idle))

/-- RELEASE (R86): a HELD slot goes FREE; any other slot is refused BAD_SLOT; a slot number above 31 is refused
BAD_ARGUMENT. The row is the mailbox write of log 5, and the Report Unit chooses at the end of the step (log 7). -/
def Obligations.Release : Prop :=
  ∀ (m : Mailbox) (s : State), Commanded m s →
    (∀ k : Fin 32, m.arg0.toNat = k.val → s.table.slots[k] = .held →
      exec (.release m) s = .next (present (answer m.tag (0x50, 0x00) { s.withMailbox 0x06 m with
        table := { s.table with slots := s.table.slots.set k .free } })))
    ∧ (∀ k : Fin 32, m.arg0.toNat = k.val → s.table.slots[k] ≠ .held →
      exec (.release m) s = .next (present (answer m.tag (0xE0, 0x04) (s.withMailbox 0x06 m))))
    ∧ (32 ≤ m.arg0.toNat → exec (.release m) s = .next (present (answer m.tag (0xE0, 0x03) (s.withMailbox 0x06 m))))

/-- FLUSH (R88, R115 to R118, R127, R129, R177). (1) With no frame open it finds nothing to do. (2) Of several open frames, in
CONTINUOUS mode, the oldest seals FLUSHED and the others stay; the timer turns to the frame that is oldest now, and that frame
is awaited here, so it does not seal too. (3) The one open frame seals in CONTINUOUS mode, and (4) in SINGLE mode, where the
capture ends. The one open frame's extent is fixed with the next boundary, if it was not. A frame with a slot becomes a slot
entry with status FLUSHED at the tail, its slot READY or handed to the Patch Engine; a slotless frame joins a skip entry, and
no slot changes. Its lines in flight count as cut and become DISCARDING, and the mark-lost count follows. The row is the
mailbox write of log 5; the Patch Engine and the drain are dealt with at the end of the step (log 21), where the Report Unit
chooses (log 7). -/
def Obligations.Flush : Prop :=
  let entered (s t : State) (f : Frame) : Prop :=
    (∀ k, f.slot = some k → (∀ e, .slot e ∈ s.table.queue → e.slot ≠ k) →
      (∀ j, j ≠ k → t.table.slots[j] = s.table.slots[j])
        ∧ ∃ e, t.table.queue = s.table.queue ++ [.slot e]
          ∧ SealedEntry s.livePlan .flushed (s.cutsInto f.number) f e
          ∧ HandedOn s.livePlan f e t.table.slots[k] s.patch t.patch)
    ∧ (f.slot = none → t.table.slots = s.table.slots ∧ t.patch = s.patch
        ∧ ∃ x, .skip x ∈ t.table.queue ∧ SkipCovers s.livePlan (s.cutsInto f.number) f x)
  let lanesCut (s t : State) (f : Frame) : Prop :=
    ∀ n : Lane,
      (∀ x q place, s.lanes[n].context = .taking x f.number q place →
        t.lanes[n] = { s.lanes[n] with context := .discarding x })
      ∧ (s.lanes[n].context.takingInto f.number = false → t.lanes[n] = s.lanes[n])
  let registered (s t : State) (f : Frame) (fixed : Bool) : Prop :=
    t.reg = { s.reg with
      correction := if fixed then s.reg.correction else 0
      next := if fixed then s.reg.next else s.reg.next.map fun b => { b with fixed := true }
      markLost := if f.markTaken then s.reg.markLost else min 255 (s.reg.markLost + 1) }
  let turned (s t : State) (f : Frame) (timer : SealTimer) : Prop :=
    s.table.sealTimer = .idle ∨ (∃ r, s.table.sealTimer = .running f.number r) → t.table.sealTimer = timer
  ∀ (m : Mailbox) (s : State), Commanded m s → Quiet s → s.capture.device ≠ .dormant →
    let c := s.withMailbox 0x05 m
    let done (t : State) : Prop :=
      exec (.flush m) s = .next t ∧ Answered m.tag (0x50, 0x00) t.capture.device t ∧ t.plan = c.plan ∧ t.held = c.held
    (s.table.openFrames = [] → exec (.flush m) s = .next (present (answer m.tag (0x50, 0x01) c)))
    ∧ (∀ f o rest, s.table.openFrames = f :: o :: rest → s.capture.mode = .continuous → Awaited none s o →
        ∃ t, done t ∧ t.table.openFrames = o :: rest
          ∧ turned s t f (timerOnceSeen false s.livePlan.run o .idle)
          ∧ entered s t f ∧ lanesCut s t f ∧ registered s t f true ∧ t.capture = s.capture)
    ∧ (∀ f, s.table.openFrames = [f] → s.capture.device = .running → s.capture.mode = .continuous →
        ∃ t, done t ∧ t.table.openFrames = [] ∧ turned s t f .idle
          ∧ entered s t f ∧ lanesCut s t f ∧ registered s t f f.fixed ∧ t.capture = s.capture)
    ∧ (∀ f, s.table.openFrames = [f] → s.capture.device = .running → s.capture.mode = .single →
        ∃ t, done t ∧ t.table.openFrames = [] ∧ turned s t f .idle
          ∧ entered s t f ∧ t.lanes = lanesAllOff true s.lanes ∧ registered s t f f.fixed ∧ SingleEnded s t)

/-! ### Sealing -/

/-- R82, R115 to R117: at a seal every enabled lane's open cursor below N × F leaves its tail to the missing count, a lane
outside LANE_ENABLE none, and every cursor is closed; the tails, from lane 0 to lane 7, join the run list while it holds
fewer than 16 runs, and one that does not fit sets the overflow flag (R82); neither the passed mask nor the end-seen flag
changes. The oldest of several open frames, holding a slot, leaves the list, a timer running for it stops, every line in
flight into it becomes DISCARDING and is counted damaged, and the frame joins the seal queue with its slot PATCHING, when
PATCH_ENABLE is set, the cause is not ABORT and the run list is not empty, and READY otherwise. -/
def Obligations.SealOfOldestFrame : Prop :=
  (∀ (p : Plan) (f : Frame),
      let tail (n : Lane) : Nat :=
        if p.enabled n then
          match f.cursors[n] with
          | .closed => 0
          | .expects c => f.rows * p.static.phases - c
        else 0
      (f.closeAll p).missing = f.missing + ((List.finRange 8).map tail).sum
        ∧ (f.closeAll p).cursors = Vector.replicate 8 .closed
        ∧ (f.closeAll p).passed = f.passed ∧ (f.closeAll p).endSeen = f.endSeen
        ∧ (f.closeAll p).delivered = f.delivered ∧ (f.closeAll p).rows = f.rows
        ∧ (f.closeAll p).runs = f.runs ++ (runTails p f).take (16 - f.runs.length)
        ∧ (f.closeAll p).overflow = (f.overflow || decide (16 - f.runs.length < (runTails p f).length)))
  ∧ (∀ (cause : SealCause) (s : State) (f g : Frame) (rest : List Frame) (k : Fin 32),
      s.table.openFrames = f :: g :: rest → f.slot = some k →
      let done := f.closeAll s.livePlan
      let cut : Nat := ((List.finRange 8).filter fun n => s.lanes[n].context.takingInto f.number).length
      let patched := s.livePlan.run.patchEnable = true ∧ cause ≠ .abort ∧ done.runs ≠ []
      let t := sealOldest cause s
      t.table.openFrames = g :: rest
        ∧ t.table.sealTimer = (match s.table.sealTimer with
            | .idle => .idle
            | .running j r => if j = f.number then .idle else .running j r)
        ∧ (∀ n : Lane, ∀ x q place, s.lanes[n].context = .taking x f.number q place →
            t.lanes[n] = { s.lanes[n] with context := .discarding x })
        ∧ (∀ n : Lane, s.lanes[n].context.takingInto f.number = false → t.lanes[n] = s.lanes[n])
        ∧ t.table.slots = s.table.slots.set k (if patched then .patching else .ready)
        ∧ t.reg.next = s.reg.next ∧ t.reg.correction = s.reg.correction ∧ t.capture = s.capture
        ∧ ∃ e, t.table.queue = s.table.queue ++ [.slot e]
            ∧ e.number = f.number ∧ e.slot = k ∧ e.rows = f.rows ∧ e.start = f.start ∧ e.correction = f.correction
            ∧ e.clamped = f.clamped ∧ e.delivered = f.delivered ∧ e.firstTime = f.firstTime
            ∧ e.markTaken = f.markTaken ∧ e.missing = done.missing ∧ e.overflow = done.overflow
            ∧ e.damaged = min 65535 (f.damaged + cut) ∧ e.filled = false ∧ e.abandoned = false
            ∧ e.patchList = (if patched then some done.runs else none)
            ∧ e.status = (match cause with
                | .lanes => if done.missing = 0 then .complete else .incomplete
                | .timer => .timedOut
                | .fifth => .forced
                | .flush => .flushed
                | .abort => .aborted))

/-- R110: the seal test of the oldest open frame: its N is fixed, and every enabled LOCKED lane has its bit in the passed
mask. -/
def Obligations.SealTest : Prop :=
  ∀ (s : State), s.table.openFrames = [] ∧ sealTest s = false
    ∨ ∃ f rest, s.table.openFrames = f :: rest
        ∧ (sealTest s = true ↔ f.fixed = true
            ∧ ∀ n : Lane, s.livePlan.run.laneEnable.getLsbD n.val = true → s.lanes[n].state = .locked →
                f.passed.getLsbD n.val = true)

/-- R120, R125: a slotless frame that seals right after the frames of a tail skip entry merges with it, its counts and masks
gathered, unless that entry is the head whose record is presented; otherwise it becomes a new skip entry of count 1. An
entry whose count is held at 2^32 − 1 goes on taking in frames (log 28). -/
def Obligations.SlotlessFramesMerge : Prop :=
  ∀ (presented : Bool) (f : Frame) (older : List QueueEntry) (x : SkipEntry),
    (x.count = 4294967295 ∨ x.first + BitVec.ofNat 32 x.count = f.number → (older ≠ [] ∨ presented = false) →
      appendSkip presented f (older ++ [.skip x]) = older ++ [.skip { x with
        count := min 4294967295 (x.count + 1)
        markTaken := x.markTaken || f.markTaken
        clamped := x.clamped || f.clamped
        overflow := x.overflow || f.overflow
        missing := min 4294967295 (x.missing + f.missing)
        damaged := min 65535 (x.damaged + f.damaged)
        delivered := x.delivered ||| f.delivered
        firstTime := match x.firstTime with | some v => some v | none => f.firstTime }])
    ∧ ((x.count ≠ 4294967295 ∧ x.first + BitVec.ofNat 32 x.count ≠ f.number) ∨ (older = [] ∧ presented = true) →
      appendSkip presented f (older ++ [.skip x]) = older ++ [.skip x, .skip (skipEntryOf f)])
    ∧ (∀ e, appendSkip presented f (older ++ [.slot e]) = older ++ [.slot e, .skip (skipEntryOf f)])
    ∧ appendSkip presented f [] = [.skip (skipEntryOf f)] ∧ (skipEntryOf f).count = 1
      ∧ (skipEntryOf f).first = f.number

/-- SEAL_TIMER_EXPIRY (R13, R103, R108, R112, R113, R115 to R118, R177). The destination and padding writes into the frame
that the held request still waits with are withdrawn; what else it waits with stays, and a request left with none is
released. (1) With older and younger frames open in CONTINUOUS mode, the frame the timer runs for, the oldest, seals
TIMED_OUT and leaves the list; its lines in flight, and a line that the held write completed, count as cut and become
DISCARDING; its slot goes READY or is handed to the Patch Engine, and a slotless frame joins a skip entry; the mark-lost
count grows unless a mark was taken; the timer is loaded for the next frame when its end-seen flag is set, and else idle;
that frame is awaited here, so it stays open. (2) In SINGLE mode the seal of frame 0, whose N is fixed, ends the capture.
(3) Whatever follows, the oldest frame seals TIMED_OUT. An idle timer does not expire (log 8). The line that counts as cut
is found by log 23, and its expected offset is log 24; the Patch Engine and the drain are dealt with once, at the end of the
step (log 21). -/
def Obligations.SealTimerExpires : Prop :=
  let timerRuns (s : State) (f : Frame) : Prop :=
    (∃ r, s.table.sealTimer = .running f.number r) ∧ (∀ h, s.held = some h → h.derived ≠ [])
      ∧ (s.heldWithout f.number = none → s.offered = [])
  let port (s t : State) (f : Frame) : Prop :=
    t.held = s.heldWithout f.number ∧ t.offered = s.offered ∧ t.memStream = s.memStream
  (∀ s : State, s.table.sealTimer = .idle → exec .sealTimerExpiry s = .next s)
  ∧ (∀ (s : State) (f o : Frame) (rest : List Frame),
      Quiet s → timerRuns s f → s.table.openFrames = f :: o :: rest → s.capture.mode = .continuous →
      Awaited none s o →
      (∀ g ∈ o :: rest, g.number ≠ f.number) → (∀ e, .slot e ∈ s.table.queue → f.slot ≠ some e.slot) →
      ∃ t, exec .sealTimerExpiry s = .next t ∧ t.table.openFrames = o :: rest
        ∧ t.table.sealTimer = timerOnceSeen false s.livePlan.run o .idle
        ∧ port s t f ∧ t.plan = s.plan ∧ t.capture = s.capture
        ∧ t.reg.next = s.reg.next ∧ t.reg.correction = s.reg.correction ∧ t.reg.origin = s.reg.origin
        ∧ t.reg.markLost = (if f.markTaken then s.reg.markLost else min 255 (s.reg.markLost + 1))
        ∧ (∀ n : Lane,
            (∀ x q place, s.lanes[n].context = .taking x f.number q place →
              t.lanes[n] = { s.lanes[n] with context := .discarding x })
            ∧ (∀ x, s.lanes[n].context = .complete x → s.completedHeld f.number n = true →
              t.lanes[n] = { s.lanes[n] with context := .discarding x })
            ∧ (s.lanes[n].context.takingInto f.number = false → s.completedHeld f.number n = false →
              t.lanes[n] = s.lanes[n]))
        ∧ (∀ k, f.slot = some k → (∀ j, j ≠ k → t.table.slots[j] = s.table.slots[j])
            ∧ ∃ e, t.table.queue = s.table.queue ++ [.slot e]
              ∧ SealedEntry s.livePlan .timedOut (s.timerCuts f.number) f e
              ∧ HandedOn s.livePlan f e t.table.slots[k] s.patch t.patch)
        ∧ (f.slot = none → t.table.slots = s.table.slots ∧ t.patch = s.patch
            ∧ ∃ x, .skip x ∈ t.table.queue ∧ SkipCovers s.livePlan (s.timerCuts f.number) f x))
  ∧ (∀ (s : State) (f : Frame) (k : Fin 32),
      Quiet s → timerRuns s f → s.table.openFrames = [f] → f.fixed = true → f.slot = some k →
      (∀ e, .slot e ∈ s.table.queue → e.slot ≠ k) → s.capture.device = .running → s.capture.mode = .single →
      ∃ t e, exec .sealTimerExpiry s = .next t ∧ t.table.openFrames = [] ∧ t.table.sealTimer = .idle
        ∧ port s t f ∧ t.plan = s.plan
        ∧ t.reg.next = s.reg.next ∧ t.reg.correction = s.reg.correction ∧ t.reg.origin = s.reg.origin
        ∧ t.table.queue = s.table.queue ++ [.slot e]
        ∧ SealedEntry s.livePlan .timedOut (s.timerCuts f.number) f e
        ∧ HandedOn s.livePlan f e t.table.slots[k] s.patch t.patch
        ∧ t.lanes = lanesAllOff true s.lanes ∧ SingleEnded s t)
  ∧ (∀ (s : State) (f : Frame) (rest : List Frame) (k : Fin 32),
      timerRuns s f → s.table.openFrames = f :: rest → f.slot = some k →
      ∃ t e, exec .sealTimerExpiry s = .next t ∧ port s t f ∧ t.table.openFrames.length ≤ rest.length
        ∧ .slot e ∈ t.table.queue ∧ SealedEntry s.livePlan .timedOut (s.timerCuts f.number) f e)

/-! ### The Patch Engine -/

/-- FILL_WRITE_TAKEN (R131 to R133, R176, R180) and the take-up (R127, R129). The waiting write reaches the controller and the
context advances. (1) While the byte offset still lies within the lane's segment, the next write of the segment waits. (2)
Past the segment's end, the next position of the run that fills something is worked from its first write on; with none left
in the run, the first position of a later run that does. (3) With the last position of a frame done, its entry is FILLED
without a patch list, its slot READY, and the next frame is taken up, or, with no other slot PATCHING, the context stays
IDLE; in a drain with no frame open the device then goes STOPPED, with a STOP or SINGLE_DONE notice, and a pending STOP is
answered. (4) An IDLE context takes up the first PATCHING entry from the head: it goes ACTIVE with that slot at the first
position of the patch list that fills something; when none does, the frame completes at once and the next is taken up. An
ACTIVE context takes up nothing. The take-up and the drain come once, at the end of the step (log 21), and the Report Unit
chooses then (log 7). -/
def Obligations.FillWritesAreTaken : Prop :=
  let takes (s : State) (w : PatchWork) (q : MemRequest) : Prop :=
    Quiet s ∧ s.patch = .active w ∧ w.waiting = some q ∧ fabricWaiting s = false ∧ s.report.presented = none
  let segmentDone (s : State) (w : PatchWork) (run : Run) : Prop :=
    (patchListOf w.slot s.table.queue)[w.runIndex]? = some run ∧ run.target s.livePlan.static w.slot w.posIndex ≠ none
      ∧ s.livePlan.static.lanes[run.lane].keep * s.livePlan.static.pixelBytes ≤ w.byteOffset + 256
  let filled (k : Fin 32) (s : State) : State := { s with table := { s.table with
    slots := s.table.slots.set k .ready
    queue := s.table.queue.map (fun x => match x with
      | .slot e => if e.slot = k then .slot { e with filled := true, patchList := none } else .slot e
      | .skip e => .skip e) } }
  let firstIs (s : State) (e : SlotEntry) (runs : List Run) : Prop :=
    e.patchList = some runs ∧ s.table.slots[e.slot] = .patching
      ∧ ∃ older younger, s.table.queue = older ++ .slot e :: younger
          ∧ ∀ x, .slot x ∈ older → s.table.slots[x.slot] ≠ .patching
  (∀ (s : State) (w : PatchWork) (q : MemRequest) (run : Run) (plane : Fin 4) (segment : Nat),
      takes s w q → (patchListOf w.slot s.table.queue)[w.runIndex]? = some run →
      run.target s.livePlan.static w.slot w.posIndex = some (plane, segment) →
      let bytes := (s.entry run.lane).keep * s.livePlan.static.pixelBytes
      w.byteOffset + 256 < bytes →
      ∃ data, exec .fillWriteTaken s = .next { s with
          memStream := q :: s.memStream
          patch := .active { w with byteOffset := w.byteOffset + 256,
                                    waiting := some (.write (segment + (w.byteOffset + 256)) 0 data) } }
        ∧ data.length = min 256 (bytes - (w.byteOffset + 256)) ∧ FillPattern s.livePlan.static plane data)
  ∧ (∀ (s : State) (w : PatchWork) (q : MemRequest) (run : Run), takes s w q → segmentDone s w run →
      let p := s.livePlan.static
      let runs := patchListOf w.slot s.table.queue
      let works (r : Run) (j i : Nat) (plane : Fin 4) (segment : Nat) : Prop :=
        ∃ c, exec .fillWriteTaken s = .next { s with memStream := q :: s.memStream, patch := c }
          ∧ WorksFrom p w.slot r j i plane segment c
      (∀ i plane segment, w.posIndex < i → i < run.count → run.target p w.slot i = some (plane, segment) →
        (∀ i', w.posIndex < i' → i' < i → run.target p w.slot i' = none) → works run w.runIndex i plane segment)
      ∧ ((∀ i, w.posIndex < i → i < run.count → run.target p w.slot i = none) →
        ∀ j r i plane segment, w.runIndex < j → runs[j]? = some r → i < r.count →
          r.target p w.slot i = some (plane, segment) → (∀ i', i' < i → r.target p w.slot i' = none) →
          NothingToFill p w.slot ((runs.take j).drop (w.runIndex + 1)) → works r j i plane segment))
  ∧ (∀ (s : State) (w : PatchWork) (q : MemRequest) (run : Run), takes s w q → segmentDone s w run →
      let p := s.livePlan.static
      let runs := patchListOf w.slot s.table.queue
      let after := filled w.slot { s with memStream := q :: s.memStream, patch := .idle }
      let stopped : Capture := { s.capture with device := .stopped, drainCause := .none }
      let notice (c : NoticeCause) : StateNotice :=
        { device := .stopped, cause := c, generation := s.plan.generation, origin := s.reg.origin }
      (∀ i, w.posIndex < i → i < run.count → run.target p w.slot i = none) →
      NothingToFill p w.slot (runs.drop (w.runIndex + 1)) →
      exec .fillWriteTaken s = .next (present (settle after))
      ∧ (∀ e next, firstIs after e next → ¬NothingToFill p e.slot next →
          ∃ c, exec .fillWriteTaken s = .next (present { after with patch := c }) ∧ TakenUp p e.slot next c)
      ∧ ((∀ k : Fin 32, k ≠ w.slot → s.table.slots[k] ≠ .patching) →
          ∃ t, exec .fillWriteTaken s = .next t ∧ t.memStream = after.memStream ∧ t.patch = .idle ∧ t.table = after.table
            ∧ (s.capture.device ≠ .draining → t.capture = s.capture ∧ t.plan = s.plan)
            ∧ (s.capture.device = .draining → s.table.openFrames = [] → t.capture = stopped
                ∧ (s.capture.drainCause = .singleDone →
                  t.report.stateNotice = some (notice .singleDone) ∧ t.plan = s.plan)
                ∧ (s.capture.drainCause = .stop → t.report.stateNotice = some (notice .stop)
                    ∧ ∀ tag, s.plan.pendingCommand = some (.stop tag) →
                      t.plan = { s.plan with pendingCommand := none } ∧ Answered tag (0x50, 0x00) .stopped t))))
  ∧ (∀ s : State,
      let p := s.livePlan.static
      (s.patch ≠ .idle → takeUp s = s)
      ∧ ((∀ x, .slot x ∈ s.table.queue → s.table.slots[x.slot] ≠ .patching) → takeUp s = s)
      ∧ ∀ e runs, s.patch = .idle → firstIs s e runs →
        (¬NothingToFill p e.slot runs → ∃ c, takeUp s = { s with patch := c } ∧ TakenUp p e.slot runs c)
        ∧ (NothingToFill p e.slot runs → takeUp s = takeUp (filled e.slot s)))

/-! ### Reports and attention -/

/-- R145, R146, R148: the number of a lane's latch is 6 × n and its place among the lane's six. A raise adds 1, up to 65535,
to its latch's count; a CLEAR latch takes the detail and goes DUE; a latch in DUE or NOTIFIED keeps its detail and standing;
nothing outside the latch changes. CLEAR_ERRORS: with some latch DUE or NOTIFIED every latch goes CLEAR with its detail
absent and its count kept, and an ERROR notice that is presented stays so but will not mark its latch NOTIFIED; with every
latch CLEAR there is nothing to do. The row is the mailbox write of log 5, and the Report Unit chooses at the end of the
step (log 7). -/
def Obligations.Latches : Prop :=
  (∀ (n : Lane) (k : LaneLatch), (laneLatch n k).val = 6 * n.val + (match k with
      | .tagReject => 0
      | .malformed => 1
      | .seqGap => 2
      | .duplicate => 3
      | .lockLost => 4
      | .late => 5))
  ∧ (∀ (k : Fin 52) (d : LatchDetail) (s : State),
      RaisedOnce k d s (raise k d s)
        ∧ ∃ ls, raise k d s = { s with report := { s.report with latches := ls } })
  ∧ (∀ (m : Mailbox) (s : State), Commanded m s →
      let c := s.withMailbox 0x08 m
      ((∃ k : Fin 52, s.report.latches[k].standing ≠ .clear) →
        exec (.clearErrors m) s = .next (present (answer m.tag (0x50, 0x00) { c with
          report := { s.report with
            latches := Vector.ofFn fun k => { s.report.latches[k] with standing := .clear, detail := none }
            presented := match s.report.presented with
              | some { kind := .record (.error k _), addr := a, data := bytes } =>
                some { kind := .record (.error k true), addr := a, data := bytes }
              | w => w } })))
      ∧ ((∀ k : Fin 52, s.report.latches[k].standing = .clear) →
        exec (.clearErrors m) s = .next (present (answer m.tag (0x50, 0x01) c))))

/-- R142, R143: what the Report Unit presents when it has no write presented: a producer word that is owed; else the waiting
acknowledge word; else the next snapshot write; else, while a ring entry is free, the state notice, the lowest-numbered
latch whose notice is due, or the head of the seal queue when it is a READY slot entry or a skip entry. A presented write
stays as it is. -/
def Obligations.ReportUnitChooses : Prop :=
  ∀ s : State,
    let r := s.report
    let t := present s
    let room := ∃ p, s.plan.live = some p ∧ r.unconsumed < p.static.ringEntries
    let writes (k : ReportKind) (a : Nat) (bytes : List Byte) : Prop :=
      t.report.presented = some { kind := k, addr := a, data := bytes }
    let entry := s.livePlan.static.ringBase + 32 * (r.producer.toNat % s.livePlan.static.ringEntries)
    let due (k : Fin 52) : Prop := r.latches[k].standing = .due ∧ r.latches[k].presented = false
    let offered (e : QueueEntry) : Prop :=
      (∃ rest, s.table.queue = e :: rest) ∧ ∀ x, e = .slot x → s.table.slots[x.slot] = .ready
    (∃ r', t = { s with report := r' })
    ∧ (r.presented ≠ none → t = s)
    ∧ (r.presented = none → r.producerOwed = true →
        writes .producerWord (s.statusBase + 4) (leBytes 4 r.producer.toNat) ∧ t.report.producerOwed = false)
    ∧ (r.presented = none → r.producerOwed = false →
      (∀ a, r.ackWaiting = some a → writes .ackWord s.statusBase a.bytes ∧ t.report.ackWaiting = none)
      ∧ (r.ackWaiting = none →
        (∀ addr bytes rest, r.snapshotWrites = (addr, bytes) :: rest →
          writes .snapshotWrite addr bytes ∧ t.report.snapshotWrites = rest)
        ∧ (r.snapshotWrites = [] →
          (¬room → t = s)
          ∧ (∀ x, room → r.stateNotice = some x → writes (.record .state) entry (stateRecord x))
          ∧ (∀ k, room → r.stateNotice = none → due k → (∀ j, j < k → ¬due j) →
              writes (.record (.error k false)) entry (errorRecord k r.latches[k]))
          ∧ (room → r.stateNotice = none → (∀ k, ¬due k) →
            (∀ e, offered e → writes (.record .frame) entry e.record)
            ∧ ((∀ e, ¬offered e) → t = s)))))

/-- RECORD_TAKEN (R85, R139, R147, R148, R150 to R152): the record reaches the controller, the producer grows by 1, an IDLE
attention timer is loaded with ATTN_DELAY, and the producer word with the new count is presented next. For the FRAME record
of a slot entry the head leaves the queue and its slot goes HELD; a skip entry leaves the queue and no slot changes. An
ERROR notice's latch goes NOTIFIED, unless CLEAR_ERRORS has been taken since it was presented, and may be presented again; a
STATE notice stops being pending, but a newer one stays. The Report Unit chooses at the end of the step (log 7). -/
def Obligations.RecordsAreTaken : Prop :=
  (∀ (s : State) (p : Plan) (addr : Nat) (bytes : List Byte) (e : SlotEntry) (rest : List QueueEntry),
      s.report.presented = some { kind := .record .frame, addr := addr, data := bytes } → fabricWaiting s = false →
      s.plan.live = some p → s.table.queue = .slot e :: rest →
      ∃ attn, exec .recordTaken s = .next { s with
          memStream := .write addr 0 bytes :: s.memStream
          table := { s.table with queue := rest, slots := s.table.slots.set e.slot .held }
          report := { s.report with
            producer := s.report.producer + 1
            producerOwed := false
            presented := some { kind := .producerWord, addr := s.statusBase + 4,
                                data := leBytes 4 (s.report.producer + 1).toNat }
            attnTimer := (if s.report.attnTimer = .idle ∧ p.run.attnDelay ≠ 0 then .running p.run.attnDelay
              else s.report.attnTimer)
            attn := attn } }
        ∧ (attn = true ↔ p.run.attnThreshold ≤ (s.report.producer + 1 - s.report.consumer).toNat
            ∨ (s.report.attnTimer = .expired ∧ 1 ≤ (s.report.producer + 1 - s.report.consumer).toNat)))
  ∧ (∀ (s : State) (addr : Nat) (bytes : List Byte), fabricWaiting s = false →
      let delay := s.livePlan.run.attnDelay
      let counted (t : State) : Prop :=
        exec .recordTaken s = .next t ∧ t.memStream = .write addr 0 bytes :: s.memStream
          ∧ t.report.producer = s.report.producer + 1 ∧ t.report.consumer = s.report.consumer
          ∧ t.report.producerOwed = false
          ∧ t.report.presented = some { kind := .producerWord, addr := s.statusBase + 4,
                                        data := leBytes 4 (s.report.producer + 1).toNat }
          ∧ t.report.attnTimer
              = (if s.report.attnTimer = .idle ∧ delay ≠ 0 then .running delay else s.report.attnTimer)
          ∧ ∀ p, s.plan.live = some p →
              (t.report.attn = true ↔ p.run.attnThreshold ≤ (s.report.producer + 1 - s.report.consumer).toNat
                ∨ (s.report.attnTimer = .expired ∧ 1 ≤ (s.report.producer + 1 - s.report.consumer).toNat))
      (∀ k voided, s.report.presented = some { kind := .record (.error k voided), addr := addr, data := bytes } →
        ∃ t, counted t
          ∧ t.report.latches = s.report.latches.set k { s.report.latches[k] with
              presented := false
              standing := if voided = true then s.report.latches[k].standing else .notified }
          ∧ t.table = s.table ∧ t.report.stateNotice = s.report.stateNotice)
      ∧ (s.report.presented = some { kind := .record .state, addr := addr, data := bytes } →
        ∃ t, counted t ∧ t.report.latches = s.report.latches ∧ t.table = s.table
          ∧ t.report.stateNotice = (if s.report.noticePresented = true then none else s.report.stateNotice))
      ∧ ∀ x rest, s.report.presented = some { kind := .record .frame, addr := addr, data := bytes } →
        s.table.queue = .skip x :: rest →
        ∃ t, counted t ∧ t.report.latches = s.report.latches ∧ t.report.stateNotice = s.report.stateNotice
          ∧ t.table = { s.table with queue := rest })

/-- REPORT_WORD_TAKEN (R142): the presented producer word or acknowledge word reaches the controller, and the Report Unit
chooses its next write. SNAPSHOT_WRITE_TAKEN (R168): with snapshot writes left the next choice is made; with the last one
taken the SNAPSHOT is answered with its tag and the device state of that moment, and is no longer pending. The Report Unit
chooses at the end of the step (log 7). -/
def Obligations.ReportWordsAndSnapshotWrites : Prop :=
  (∀ (s : State) (k : ReportKind) (addr : Nat) (bytes : List Byte), (k = .producerWord ∨ k = .ackWord) →
      s.report.presented = some { kind := k, addr := addr, data := bytes } → fabricWaiting s = false →
      exec .reportWordTaken s = .next (present { s with
        memStream := .write addr 0 bytes :: s.memStream, report := { s.report with presented := none } }))
  ∧ (∀ (s : State) (addr : Nat) (bytes : List Byte),
      s.report.presented = some { kind := .snapshotWrite, addr := addr, data := bytes } → fabricWaiting s = false →
      (s.report.snapshotWrites ≠ [] → exec .snapshotWriteTaken s = .next (present { s with
        memStream := .write addr 0 bytes :: s.memStream, report := { s.report with presented := none } }))
      ∧ ∀ tag, s.report.snapshotWrites = [] → s.plan.pendingCommand = some (.snapshot tag) →
          exec .snapshotWriteTaken s = .next (present (answer tag (0x50, 0x00) { s with
            memStream := .write addr 0 bytes :: s.memStream
            report := { s.report with presented := none }
            plan := { s.plan with pendingCommand := none } })))

/-- CONSUMER_WORD (R140, R151, R152): the consumer word acts with the value written: in range the consumer becomes it; ahead
of the producer it becomes the producer; behind the consumer it is held and BAD_CONSUMER is raised. The row is the four-byte
write of log 5, and the Report Unit chooses at the end of the step (log 7). -/
def Obligations.ConsumerWordMovesTheConsumer : Prop :=
  ∀ (tag : Byte) (v : Count) (s : State) (p : Plan), s.portFree → s.plan.shadow.wf = true → s.plan.live = some p →
    let w := consumerWrite s tag v
    let d := (v - s.report.consumer).toInt
    let u := (s.report.producer - s.report.consumer).toNat
    let base : State := { s with
      held := heldFor w none [forwardWrite w]
      plan := { s.plan with shadow := s.plan.shadow.writeBytes 0xF00 (leBytes 4 v.toNat) } }
    let moved (c : Count) : State := { base with report := { s.report with
      consumer := c
      attnTimer := if s.report.producer = c then .idle else s.report.attnTimer
      attn := decide (p.run.attnThreshold ≤ (s.report.producer - c).toNat)
        || (decide (s.report.attnTimer = .expired) && decide (s.report.producer ≠ c)) } }
    (d < 0 → exec (.consumerWord tag v) s = .next (present (raise 51 (.badConsumer v s.report.consumer) base)))
    ∧ (d = 0 → exec (.consumerWord tag v) s = .next (present base))
    ∧ (0 < d → d ≤ (u : Int) → exec (.consumerWord tag v) s = .next (present (moved v)))
    ∧ ((u : Int) < d → exec (.consumerWord tag v) s = .next (present (moved s.report.producer)))

/-- ATTENTION_TIMER_EXPIRY (R151, R152): a RUNNING timer goes EXPIRED and the line is evaluated: high while a record is
unconsumed. A timer that is not RUNNING does not expire (log 8). -/
def Obligations.AttentionTimerExpires : Prop :=
  ∀ s : State,
    ((∀ r, s.report.attnTimer ≠ .running r) → exec .attentionTimerExpiry s = .next s)
    ∧ ∀ r p, s.report.attnTimer = .running r → s.plan.live = some p →
        exec .attentionTimerExpiry s = .next { s with report := { s.report with
          attnTimer := .expired
          attn := decide (p.run.attnThreshold ≤ s.report.unconsumed) || decide (1 ≤ s.report.unconsumed) } }

/-- R138, R183, R185, R186, R189 to R195: every byte of what the Report Unit writes, and every field of what the part reads.
A report record has 32 bytes, the acknowledge word four, and the snapshot block 296, written as 256 and 40; each field of a
FRAME record of a slot entry and of a skip entry, of an ERROR record by the kind of its detail, of a STATE record, of the
acknowledge word and of the snapshot block stands at its offset, little-endian, with an absent value and every byte without
a field 0. The fields of a line tag and of the plan in the shadow are the bytes at their offsets, little-endian; a phase-map
entry from F on is not read, and stands as DISCARD. -/
def Obligations.FormatsHaveTheirLengths : Prop :=
  let device : DeviceState → Nat
    | .dormant => 0
    | .stopped => 1
    | .armed => 2
    | .running => 3
    | .draining => 4
  let bit (b : Bool) (value : Nat) : Nat := if b then value else 0
  let orZero (o : Option Count) : Nat := match o with | none => 0 | some v => v.toNat
  (∀ k l, (errorRecord k l).length = 32) ∧ (∀ x, (stateRecord x).length = 32) ∧ (∀ e, (QueueEntry.record e).length = 32)
  ∧ (∀ a : AckWord, a.bytes.length = 4 ∧ FieldIs a.bytes 0 1 a.tag.toNat ∧ FieldIs a.bytes 1 1 a.cls.toNat
      ∧ FieldIs a.bytes 2 1 a.detail.toNat ∧ FieldIs a.bytes 3 1 (device a.device))
  ∧ (∀ e : SlotEntry,
      let status : FrameStatus → Nat
        | .complete => 1
        | .incomplete => 2
        | .timedOut => 3
        | .forced => 4
        | .flushed => 5
        | .aborted => 6
        | .skipped => 7
      let field := FieldIs (QueueEntry.record (.slot e))
      field 0 1 1 ∧ field 1 1 (status e.status)
        ∧ field 2 1 (bit e.markTaken 1 + bit e.clamped 2 + bit e.overflow 4 + bit e.filled 8 + bit e.abandoned 16)
        ∧ field 3 1 e.slot.val ∧ field 4 4 e.number.toNat ∧ field 8 2 e.rows ∧ field 10 2 0 ∧ field 12 4 e.missing
        ∧ field 16 2 e.damaged ∧ field 18 1 e.delivered.toNat ∧ field 19 1 0 ∧ field 20 4 e.start.toNat
        ∧ SignedFieldIs (QueueEntry.record (.slot e)) 24 4 e.correction ∧ field 28 4 (orZero e.firstTime))
  ∧ (∀ x : SkipEntry,
      let field := FieldIs (QueueEntry.record (.skip x))
      field 0 1 1 ∧ field 1 1 7 ∧ field 2 1 (bit x.markTaken 1 + bit x.clamped 2 + bit x.overflow 4) ∧ field 3 1 255
        ∧ field 4 4 x.first.toNat ∧ field 8 2 (x.count / 65536) ∧ field 10 2 x.count ∧ field 12 4 x.missing
        ∧ field 16 2 x.damaged ∧ field 18 1 x.delivered.toNat ∧ field 19 1 0 ∧ field 20 4 x.start.toNat
        ∧ SignedFieldIs (QueueEntry.record (.skip x)) 24 4 x.correction ∧ field 28 4 (orZero x.firstTime))
  ∧ (∀ (k : Fin 52) (l : Latch) (d : LatchDetail), l.detail = some d →
      let field := FieldIs (errorRecord k l)
      field 0 1 2 ∧ field 1 1 k.val ∧ field 2 1 (if k.val < 48 then k.val / 6 else 255) ∧ field 4 2 l.count
        ∧ field 6 2 0
        ∧ match d with
          | .tagReject tag off => field 3 1 1 ∧ field 8 1 tag.toNat ∧ field 9 3 0 ∧ field 12 4 off ∧ field 16 16 0
          | .malformed code off => field 3 1 2 ∧ field 8 1 code ∧ field 9 3 0 ∧ field 12 4 off ∧ field 16 16 0
          | .seqGap seq gap => field 3 1 3 ∧ field 8 2 seq.toNat ∧ field 10 2 gap.toNat ∧ field 12 20 0
          | .duplicate seq last => field 3 1 4 ∧ field 8 2 seq.toNat ∧ field 10 2 last.toNat ∧ field 12 20 0
          | .lockLost cause seq pos gSeq gPos =>
            field 3 1 5 ∧ field 8 1 (match cause with | .gap => 1 | .ahead => 2) ∧ field 9 1 0 ∧ field 10 2 seq.toNat
              ∧ field 12 4 pos.toNat ∧ field 16 2 gSeq.toNat ∧ field 18 2 0 ∧ field 20 4 gPos.toNat ∧ field 24 8 0
          | .late seq pos => field 3 1 6 ∧ field 8 2 seq.toNat ∧ field 10 2 0 ∧ field 12 4 pos.toNat ∧ field 16 16 0
          | .markWindow frame lane row error =>
            field 3 1 7 ∧ field 8 4 frame.toNat ∧ field 12 1 lane.val ∧ field 13 3 0 ∧ field 16 4 row ∧ field 20 4 0
              ∧ SignedFieldIs (errorRecord k l) 24 8 error
          | .markLost frame count => field 3 1 8 ∧ field 8 4 frame.toNat ∧ field 12 1 count ∧ field 13 19 0
          | .noSlot frame => field 3 1 9 ∧ field 8 4 frame.toNat ∧ field 12 20 0
          | .badConsumer value consumer =>
            field 3 1 10 ∧ field 8 4 value.toNat ∧ field 12 4 consumer.toNat ∧ field 16 16 0)
  ∧ (∀ x : StateNotice,
      let cause : NoticeCause → Nat
        | .origin => 1
        | .stop => 2
        | .singleDone => 3
        | .abort => 4
      let field := FieldIs (stateRecord x)
      field 0 1 3 ∧ field 1 1 (device x.device) ∧ field 2 1 (cause x.cause) ∧ field 3 1 (bit x.origin.isSome 1)
        ∧ field 4 2 x.generation ∧ field 6 2 0 ∧ field 8 4 (orZero x.origin) ∧ field 12 20 0)
  ∧ (∀ data : List Byte, 16 ≤ data.length →
      let byte (i : Nat) : Nat := (data[i]?.getD 0).toNat
      let t := readTag data
      (t.mark = true ↔ byte 1 = 1) ∧ t.seq.toNat = byte 2 + 256 * byte 3
        ∧ t.enc.toNat = byte 4 + 256 * byte 5 + 65536 * byte 6 + 16777216 * byte 7 ∧ t.pix = byte 8 + 256 * byte 9
        ∧ t.time.toNat = byte 12 + 256 * byte 13 + 65536 * byte 14 + 16777216 * byte 15)
  ∧ (∀ m : Memory,
      let byte (a : Nat) : Nat := (m.read a).toNat
      let two (a : Nat) : Nat := byte a + 256 * byte (a + 1)
      let four (a : Nat) : Nat := two a + 65536 * two (a + 2)
      let eight (a : Nat) : Nat := four a + 4294967296 * four (a + 4)
      let bit0 (a : Nat) : Bool := decide (byte a % 2 = 1)
      let f := (readPlan m).static
      let r := (readPlan m).run
      (f.phases = byte 0x00 ∧ f.phaseRot = byte 0x01 ∧ f.pixelBytes = byte 0x02 ∧ f.slots = byte 0x03
        ∧ f.frameRows = two 0x04 ∧ f.roundBias = two 0x06 ∧ f.repeatLen = four 0x08 ∧ f.markOffset = four 0x0C
        ∧ r.markWindow = byte 0x10 ∧ r.markGain = byte 0x11 ∧ r.markLostLimit = byte 0x12 ∧ r.patchEnable = bit0 0x13
        ∧ r.markMaxStep = four 0x14 ∧ r.sealTimeout = four 0x18 ∧ r.attnDelay = four 0x1C
        ∧ r.laneEnable.toNat = byte 0x20 ∧ f.sinkEnable = bit0 0x21 ∧ r.attnThreshold = two 0x22
        ∧ f.ringEntries = two 0x24 ∧ f.sinkBase = eight 0x28 ∧ f.ringBase = eight 0x30)
      ∧ (∀ i : Fin 4, (i.val < f.phases → f.phaseMap[i] = byte (0x080 + i.val))
          ∧ (f.phases ≤ i.val → f.phaseMap[i] = 0xFF))
      ∧ (∀ i : Fin 8, f.aliases[i].reqTag = byte (0x0C0 + 4 * i.val) ∧ f.aliases[i].lane = byte (0x0C1 + 4 * i.val))
      ∧ (∀ i : Fin 4,
          let at_ (off : Nat) : Nat := 0x100 + 32 * i.val + off
          let e := f.planes[i]
          e.base = eight (at_ 0) ∧ e.stride = eight (at_ 8) ∧ e.pitch = four (at_ 16) ∧ e.keepMask = byte (at_ 20)
            ∧ e.fill = two (at_ 22))
      ∧ ∀ n : Lane,
          let at_ (off : Nat) : Nat := 0x200 + 64 * n.val + off
          let e := f.lanes[n]
          e.winBase = eight (at_ 0) ∧ e.winStride = four (at_ 8) ∧ e.winLines = two (at_ 12)
            ∧ e.lockCode = byte (at_ 14) % 4 ∧ e.gapLimit = byte (at_ 15) ∧ e.delay.toNat = four (at_ 16)
            ∧ e.cropFirst = two (at_ 20) ∧ e.keep = two (at_ 22) ∧ e.xOffset = four (at_ 24)
            ∧ e.markSource = bit0 (at_ 28))
  ∧ ∀ s : State,
      let lane : LaneState → Nat
        | .off => 0
        | .seeking => 1
        | .locking => 2
        | .locked => 3
      let slot : SlotState → Nat
        | .free => 0
        | .filling => 1
        | .patching => 2
        | .ready => 3
        | .held => 4
      let kind : InjectionKind → Nat
        | .drop => 1
        | .seqSkip => 2
        | .encShift => 3
        | .mark => 4
        | .tagFault => 5
      let open_ := s.table.openFrames
      let field := FieldIs (snapshotBlock s)
      (snapshotBlock s).length = 296
        ∧ (∃ first second, snapshotWritesOf s = [(s.statusBase + 0x100, first), (s.statusBase + 0x200, second)]
            ∧ first.length = 256 ∧ second.length = 40 ∧ first ++ second = snapshotBlock s)
        ∧ field 0 1 (device s.capture.device)
        ∧ field 1 1 (match s.capture.mode with | .continuous => 0 | .single => 1)
        ∧ field 2 1 (match s.reg.mode with | .free => 0 | .mark => 1)
        ∧ field 3 1 (bit s.reg.origin.isSome 1 + bit (decide (open_ ≠ [])) 2) ∧ field 4 2 s.plan.generation
        ∧ field 6 1 s.reg.markLost ∧ field 7 1 s.table.queue.length ∧ field 8 4 (orZero s.reg.origin)
        ∧ field 12 4 (orZero (open_.head?.map Frame.number)) ∧ field 16 4 (orZero (open_.getLast?.map Frame.number))
        ∧ SignedFieldIs (snapshotBlock s) 20 4 s.reg.correction ∧ field 24 4 s.report.producer.toNat
        ∧ field 28 4 s.report.consumer.toNat
        ∧ (∀ n : Lane,
            let l := s.lanes[n]
            let at_ (off : Nat) : Nat := 32 + 16 * n.val + off
            field (at_ 0) 1 (lane l.state) ∧ field (at_ 1) 1 l.progress ∧ field (at_ 2) 1 (bit l.tagKnown 1)
              ∧ field (at_ 3) 1 (match l.injection with | none => 0 | some i => kind i.kind)
              ∧ field (at_ 4) 1 (match l.injection with | none => 0 | some i => i.countdown) ∧ field (at_ 5) 1 0
              ∧ field (at_ 6) 2 l.lastSeq.toNat ∧ field (at_ 8) 4 l.lastP.toNat ∧ field (at_ 12) 4 0)
        ∧ (∀ k : Fin 32, field (160 + k.val) 1 (slot s.table.slots[k]))
        ∧ ∀ k : Fin 52, field (192 + 2 * k.val) 2 s.report.latches[k].count

/-! ### Plan page and commands -/

/-- R37, R88, R121, R158, R160, R162, R171: a code that names no command is answered UNKNOWN, whatever the device state.
While a STOP or a SNAPSHOT is pending the five barred commands are refused BUSY, and so is a START behind a tail skip entry.
With neither, the states in which a command is refused BAD_STATE. The row is the mailbox write of log 5, and the Report Unit
chooses at the end of the step (log 7). -/
def Obligations.CommandsAreRefused : Prop :=
  (∀ (code : Byte) (m : Mailbox) (s : State), Commanded m s → code.toNat < 1 ∨ 9 < code.toNat →
      exec (.unknown code m) s = .next (present (answer m.tag (0xE0, 0xFF) (s.withMailbox code m))))
  ∧ (∀ (m : Mailbox) (s : State), Commanded m s →
      let busyOn (code : Byte) : Host.Outcome State Fault Refusal :=
        .next (present (answer m.tag (0xE0, 0x01) (s.withMailbox code m)))
      (s.plan.pendingCommand ≠ none →
        exec (.commit m) s = busyOn 1 ∧ exec (.start m) s = busyOn 2 ∧ exec (.stop m) s = busyOn 3
          ∧ exec (.abort m) s = busyOn 4 ∧ exec (.snapshot m) s = busyOn 7)
      ∧ ∀ e older, s.table.queue = older ++ [.skip e] → exec (.start m) s = busyOn 2)
  ∧ (∀ (m : Mailbox) (s : State), Commanded m s → s.plan.pendingCommand = none → tailIsSkip s.table = false →
      let bad (code : Byte) : Host.Outcome State Fault Refusal :=
        .next (present (answer m.tag (0xE0, 0x02) (s.withMailbox code m)))
      let d := s.capture.device
      (d ≠ .stopped → exec (.start m) s = bad 2)
      ∧ (d = .dormant → exec (.stop m) s = bad 3 ∧ exec (.abort m) s = bad 4 ∧ exec (.flush m) s = bad 5
          ∧ exec (.inject m) s = bad 9)
      ∧ (d = .draining → s.capture.drainCause = .singleDone → exec (.stop m) s = bad 3 ∧ exec (.commit m) s = bad 1))

/-- COMMIT (R161, R162, R165): in DORMANT, a plan that passes its checks is taken: the live plan is there, the generation
grows by 1, the device goes STOPPED, the counts are 0 with a producer word owed, and the answer is done. Later, a changed
plan that passes its checks, with equal static fields in ARMED and RUNNING, is taken with the answer done, and the
generation grows by 1 up to 65535; a changed ring resets the counts. In ARMED and RUNNING the lanes that LANE_ENABLE adds go
SEEKING with the last tag unknown, and those it removes go OFF, their lines in flight cut and counted damaged; the others
stay; a changed MARK_MAX_STEP limits the pending correction at once, and the newest frame's N is recomputed; no seal follows
while the oldest frame is awaited by another lane or no lane was removed, and one that waited for the removed lanes alone
seals by its lanes. An unknown last tag is log 13; a single capture that ends so is log 20. The row is the mailbox write of
log 5, and the Report Unit chooses at the end of the step (log 7). The fields compared are all those of R185 and R186 (log
15). -/
def Obligations.GoodCommitTakesThePlan : Prop :=
  (∀ (m : Mailbox) (s : State), Commanded m s → s.plan.pendingCommand = none → s.plan.live = none →
      s.capture.device = .dormant →
      let c := s.withMailbox 0x01 m
      let p := readPlan c.plan.shadow
      failedCheck s p = none →
      exec (.commit m) s = .next (present (answer m.tag (0x50, 0x00) { c with
        plan := { c.plan with live := some p, generation := min 65535 (s.plan.generation + 1) }
        capture := { s.capture with device := .stopped }
        table := { s.table with lastAllocated := none }
        report := { s.report with producer := 0, consumer := 0, attnTimer := .idle, producerOwed := true, attn := false } })))
  ∧ (∀ (m : Mailbox) (s : State) (old : Plan), Commanded m s → s.plan.pendingCommand = none →
      s.capture.device ≠ .draining → s.plan.live = some old →
      let c := s.withMailbox 0x01 m
      let p := readPlan c.plan.shadow
      ((s.capture.device = .armed ∨ s.capture.device = .running) → p.static = old.static) →
      failedCheck s p = none → p ≠ old →
      ∃ t, exec (.commit m) s = .next t ∧ t.plan.live = some p
        ∧ t.plan.generation = min 65535 (s.plan.generation + 1) ∧ t.plan.shadow = c.plan.shadow
        ∧ Answered m.tag (0x50, 0x00) t.capture.device t ∧ t.reg.origin = s.reg.origin
        ∧ (s.capture.device = .stopped → (s.patch = .idle → firstPatching s.table = none) →
            t.lanes = s.lanes ∧ t.table.slots = s.table.slots)
        ∧ (¬(p.static.ringBase = old.static.ringBase ∧ p.static.ringEntries = old.static.ringEntries) →
            t.report.producer = 0 ∧ t.report.consumer = 0)
        ∧ (p.static.ringBase = old.static.ringBase → p.static.ringEntries = old.static.ringEntries →
            t.report.producer = s.report.producer ∧ t.report.consumer = s.report.consumer))
  ∧ (∀ (m : Mailbox) (s : State) (old : Plan), Commanded m s → s.plan.pendingCommand = none →
      (s.capture.device = .armed ∨ s.capture.device = .running) → s.plan.live = some old →
      let p := readPlan (s.withMailbox 0x01 m).plan.shadow
      p.static = old.static → failedCheck s p = none → p ≠ old →
      let enabledIn (q : Plan) (n : Lane) : Bool := q.run.laneEnable.getLsbD n.val
      let joins (n : Lane) : Bool := enabledIn p n && !enabledIn old n
      let leaves (n : Lane) : Bool := enabledIn old n && !enabledIn p n
      let cuts (f : Frame) : Nat :=
        ((List.finRange 8).filter fun n => leaves n && s.lanes[n].context.takingInto f.number).length
      let allCuts (f : Frame) : Nat :=
        ((List.finRange 8).filter fun n => !joins n && s.lanes[n].context.takingInto f.number).length
      let stays (n : Lane) : Prop := enabledIn old n = true ∧ enabledIn p n = true ∧ s.lanes[n].state = .locked
      let correction : Int :=
        if old.run.markMaxStep = p.run.markMaxStep then s.reg.correction
        else max (-(p.run.markMaxStep : Int)) (min (p.run.markMaxStep : Int) s.reg.correction)
      let noSeal : Prop :=
        (∀ n, leaves n = false) ∨ s.table.openFrames = []
          ∨ ∃ o rest, s.table.openFrames = o :: rest
              ∧ (o.fixed = false ∨ ∃ n : Lane, stays n ∧ o.passed.getLsbD n.val = false)
      ∃ t, exec (.commit m) s = .next t ∧ t.reg.correction = correction
        ∧ (noSeal →
            (∀ n : Lane, t.lanes[n] =
              if joins n then
                { s.lanes[n] with state := .seeking, progress := 0, tagKnown := false, lastSeq := 0, lastP := 0,
                                  context := .none, setAside := none }
              else if leaves n then { s.lanes[n] with state := .off, progress := 0, context := .none, setAside := none }
              else s.lanes[n])
            ∧ t.table.openFrames.length = s.table.openFrames.length ∧ t.capture = s.capture
            ∧ ∀ (i : Nat) (f : Frame), s.table.openFrames[i]? = some f → ∃ g, t.table.openFrames[i]? = some g
                ∧ g = { f with
                    rows := g.rows
                    damaged := if cuts f = 0 then f.damaged else min 65535 (f.damaged + cuts f) }
                ∧ g.rows = (if i + 1 = s.table.openFrames.length ∧ f.fixed = false
                    ∧ old.run.markMaxStep ≠ p.run.markMaxStep then provisionalRows p correction f else f.rows))
        ∧ ∀ (o : Frame) (rest : List Frame) (k : Fin 32), s.table.openFrames = o :: rest → (∃ n, leaves n = true) →
            o.fixed = true → (∀ n : Lane, stays n → o.passed.getLsbD n.val = true) → o.slot = some k →
            ∃ e, .slot e ∈ t.table.queue ∧ SealedEntry p (lanesStatus p o) (allCuts o) o e)

/-- COMMIT (R161, R162): with the plan checks failing, the lowest-numbered failing check is the answer and nothing is taken;
in ARMED and RUNNING a differing static field is refused RUNNING_FIELD before any check; a plan equal to the live one is
answered done, nothing to do. The row is the mailbox write of log 5, and the Report Unit chooses at the end of the step (log
7). The static fields compared are all those of R185 and R186 (log 15). -/
def Obligations.CommitsThatTakeNothing : Prop :=
  ∀ (m : Mailbox) (s : State), Commanded m s → s.plan.pendingCommand = none → s.capture.device ≠ .draining →
    let c := s.withMailbox 0x01 m
    let p := readPlan c.plan.shadow
    let capturing := s.capture.device = .armed ∨ s.capture.device = .running
    let answers (r : ResultWord) : Prop := exec (.commit m) s = .next (present (answer m.tag r c))
    (∀ k, failedCheck s p = some k → (s.plan.live = none ∨ ¬capturing) → answers (0xE1, BitVec.ofNat 8 k))
    ∧ (∀ old, s.plan.live = some old → capturing → p.static ≠ old.static → answers (0xE0, 0x05))
    ∧ (∀ old k, s.plan.live = some old → p.static = old.static → failedCheck s p = some k →
        answers (0xE1, BitVec.ofNat 8 k))
    ∧ (s.plan.live = some p → failedCheck s p = none → answers (0x50, 0x01))

/-- R161, R163, R164: the answer to a COMMIT names the lowest-numbered plan check that fails, and none fails exactly when
all fifteen pass. Each check passes exactly when what R163 and R164 ask of the plan holds: (1) F and PHASE_ROT, (2) the
phase map, (3) H and L, (4) the mark fields, (5) SLOTS and SEAL_TIMEOUT, (6) PIXEL_BYTES, (7) every used plane, (8) every
non-vacant lane, (9) disjoint segments, (10) the alias table, (11) LANE_ENABLE, (12) the ring and the attention fields, (13)
regions that lie within the 48-bit address space and are disjoint, (14) the plane table and SLOTS unchanged or every slot
FREE, (15) the ring unchanged or empty. ROW_PITCH 0 fails check 7 (log 16). -/
def Obligations.PlanChecksInOrder : Prop :=
  ∀ (s : State) (p : Plan),
    let passes (k : Nat) : Prop := (planChecks s p)[k - 1]? = some true
    let f := p.static
    let r := p.run
    let named (i : Fin 4) (plane : Nat) : Prop := i.val < f.phases ∧ f.phaseMap[i] = plane ∧ plane < 4
    let used (i : Fin 4) : Prop := ∃ j, named j i.val
    let lane (n : Lane) : Prop := f.lanes[n].winLines ≠ 0
    let bytes (n : Lane) : Nat := f.lanes[n].keep * f.pixelBytes
    let kept (mask : Nat) : Nat := ((List.range f.frameRows).filter fun j => mask.testBit (j % 8)).length
    let apart (a b : Nat × Nat) : Prop := a.1 + a.2 ≤ b.1 ∨ b.1 + b.2 ≤ a.1 ∨ a.2 = 0 ∨ b.2 = 0
    let planeRegion (i : Fin 4) : Nat × Nat := (f.planes[i].base, f.slots * f.planes[i].stride)
    let window (n : Lane) : Nat × Nat := (f.lanes[n].winBase, f.lanes[n].winLines * f.lanes[n].winStride)
    let fixedRegions : List (Nat × Nat) :=
      [(4096 * (f.sinkBase / 4096), 4096), (f.ringBase, 32 * f.ringEntries), (s.planBase, 4096), (s.statusBase, 4096)]
    (failedCheck s p = none ↔ ∀ k, 1 ≤ k → k ≤ 15 → passes k)
    ∧ (∀ k : Nat, failedCheck s p = some k ↔ 1 ≤ k ∧ k ≤ 15 ∧ ¬passes k ∧ ∀ i : Nat, 1 ≤ i → i < k → passes i)
    ∧ (planChecks s p).length = 15
    ∧ (passes 1 ↔ 1 ≤ f.phases ∧ f.phases ≤ 4 ∧ f.phaseRot < f.phases)
    ∧ (passes 2 ↔ (∀ i : Fin 4, i.val < f.phases → f.phaseMap[i] ≤ 3 ∨ f.phaseMap[i] = 255) ∧ (∃ i : Fin 4, used i)
        ∧ ∀ (i j : Fin 4) (plane : Nat), named i plane → named j plane → i = j)
    ∧ (passes 3 ↔ 16 ≤ f.frameRows ∧ f.frameRows ≤ 65535 ∧ 16 * 65536 ≤ f.repeatLen
        ∧ f.repeatLen ≤ f.frameRows * 65536)
    ∧ (passes 4 ↔ f.markOffset < f.repeatLen ∧ 1 ≤ r.markWindow ∧ r.markWindow ≤ 255 ∧ r.markGain ≤ 4
        ∧ r.markMaxStep ≤ 524288)
    ∧ (passes 5 ↔ 1 ≤ f.slots ∧ f.slots ≤ 32 ∧ r.sealTimeout ≤ 1000000)
    ∧ (passes 6 ↔ f.pixelBytes = 1 ∨ f.pixelBytes = 2)
    ∧ (passes 7 ↔ ∀ i : Fin 4, used i →
        let e := f.planes[i]
        e.base % 4096 = 0 ∧ e.stride % 4096 = 0
          ∧ ((∃ k, 4 ≤ k ∧ k ≤ 12 ∧ e.pitch = 2 ^ k) ∨ (e.pitch % 4096 = 0 ∧ 1 ≤ e.pitch ∧ e.pitch ≤ 1048576))
          ∧ e.keepMask ≠ 0 ∧ kept e.keepMask * e.pitch ≤ e.stride)
    ∧ (passes 8 ↔ ∀ n : Lane, lane n →
        let e := f.lanes[n]
        e.winBase % 65536 = 0 ∧ (∃ k, 10 ≤ k ∧ k ≤ 16 ∧ e.winStride = 2 ^ k) ∧ 2 ≤ e.winLines ∧ e.winLines ≤ 4096
          ∧ e.cropFirst ≤ 16383 ∧ 1 ≤ e.keep ∧ e.keep ≤ 16384 ∧ e.cropFirst + e.keep ≤ 16384
          ∧ 16 + (e.cropFirst + e.keep) * f.pixelBytes ≤ e.winStride ∧ (f.phases : Int) ∣ e.delay.toInt
          ∧ ∀ i : Fin 4, used i → e.xOffset + bytes n ≤ f.planes[i].pitch
              ∧ (f.planes[i].pitch % 4096 = 0 → e.xOffset % 4096 + bytes n ≤ 4096))
    ∧ (passes 9 ↔ ∀ a b : Lane, a ≠ b → lane a → lane b →
        apart (f.lanes[a].xOffset, bytes a) (f.lanes[b].xOffset, bytes b))
    ∧ (passes 10 ↔ (∀ i : Fin 8, f.aliases[i].reqTag ≠ 0 → f.aliases[i].lane ≤ 7)
        ∧ (∀ i j : Fin 8, i ≠ j → f.aliases[i].reqTag ≠ 0 → f.aliases[i].reqTag ≠ f.aliases[j].reqTag)
        ∧ ∀ n : Lane, lane n → ∃ i : Fin 8, f.aliases[i].reqTag ≠ 0 ∧ f.aliases[i].lane = n.val)
    ∧ (passes 11 ↔ ∀ n : Lane, r.laneEnable.getLsbD n.val = true → lane n)
    ∧ (passes 12 ↔ f.ringBase % 4096 = 0 ∧ (∃ k, 4 ≤ k ∧ k ≤ 12 ∧ f.ringEntries = 2 ^ k) ∧ 1 ≤ r.attnThreshold
        ∧ r.attnThreshold ≤ f.ringEntries ∧ r.attnDelay ≤ 1000000)
    ∧ (passes 13 ↔ (∀ i : Fin 4, used i → (planeRegion i).1 + (planeRegion i).2 ≤ 2 ^ 48)
        ∧ (∀ n : Lane, lane n → (window n).1 + (window n).2 ≤ 2 ^ 48) ∧ (∀ a ∈ fixedRegions, a.1 + a.2 ≤ 2 ^ 48)
        ∧ (∀ i j : Fin 4, i ≠ j → used i → used j → apart (planeRegion i) (planeRegion j))
        ∧ (∀ n m : Lane, n ≠ m → lane n → lane m → apart (window n) (window m)) ∧ fixedRegions.Pairwise apart
        ∧ (∀ (i : Fin 4) (n : Lane), used i → lane n → apart (planeRegion i) (window n))
        ∧ (∀ i : Fin 4, used i → ∀ a ∈ fixedRegions, apart (planeRegion i) a)
        ∧ ∀ n : Lane, lane n → ∀ a ∈ fixedRegions, apart (window n) a)
    ∧ (passes 14 ↔ (∃ old, s.plan.live = some old ∧ f.planes = old.static.planes ∧ f.slots = old.static.slots)
        ∨ ∀ k : Fin 32, s.table.slots[k] = .free)
    ∧ (passes 15 ↔ (∃ old, s.plan.live = some old ∧ f.ringBase = old.static.ringBase
          ∧ f.ringEntries = old.static.ringEntries)
        ∨ (s.report.producer = s.report.consumer ∧ ∀ w k, s.report.presented = some w → w.kind ≠ .record k))

/-- INJECT (R37): a kind 1 to 5 with a countdown 1 to 8 for a lane with a window becomes that lane's injection; any argument
out of range, or a vacant lane, is refused BAD_ARGUMENT and nothing changes. The row is the mailbox write of log 5, and the
Report Unit chooses at the end of the step (log 7). -/
def Obligations.Inject : Prop :=
  ∀ (m : Mailbox) (s : State), Commanded m s → s.capture.device ≠ .dormant →
    let kinds : List InjectionKind := [.drop, .seqSkip, .encShift, .mark, .tagFault]
    (∀ (n : Lane) (i : Nat) (kind : InjectionKind), m.arg0.toNat = n.val → kinds[i]? = some kind →
      m.arg1.toNat = i + 1 → 1 ≤ m.arg2.toNat → m.arg2.toNat ≤ 8 → (s.entry n).winLines ≠ 0 →
      exec (.inject m) s = .next (present (answer m.tag (0x50, 0x00) { s.withMailbox 0x09 m with
        lanes := s.lanes.set n { s.lanes[n] with
          injection := some { kind := kind, countdown := m.arg2.toNat } } })))
    ∧ ((8 ≤ m.arg0.toNat ∨ m.arg1.toNat < 1 ∨ 5 < m.arg1.toNat ∨ m.arg2.toNat < 1 ∨ 8 < m.arg2.toNat
        ∨ ∃ n : Lane, m.arg0.toNat = n.val ∧ (s.entry n).winLines = 0) →
      exec (.inject m) s = .next (present (answer m.tag (0xE0, 0x03) (s.withMailbox 0x09 m))))

/-- SNAPSHOT (R149, R166, R168): with no command pending, the values are captured in the two writes of the block, the 52
counts become 0 at the same moment, and SNAPSHOT is pending with its tag. The row is the mailbox write of log 5, and the
Report Unit chooses at the end of the step (log 7). -/
def Obligations.SnapshotCaptures : Prop :=
  ∀ (m : Mailbox) (s : State), Commanded m s → s.plan.pendingCommand = none →
    let c := s.withMailbox 0x07 m
    exec (.snapshot m) s = .next (present { c with
      report := { s.report with
        latches := Vector.ofFn fun k => { s.report.latches[k] with count := 0 }
        snapshotWrites := [(s.statusBase + 0x100, (snapshotBlock s).take 256),
                           (s.statusBase + 0x200, (snapshotBlock s).drop 256)] }
      plan := { c.plan with pendingCommand := some (.snapshot m.tag) } })

/-! ### Capture control -/

/-- START (R172, R173): in STOPPED with arguments 0 or 1 the capture begins: ARMED, the modes taken, the Registration Unit
cleared, the last-allocated slot none, and every lane as after reset but SEEKING where LANE_ENABLE has it. An argument above
1 is refused BAD_ARGUMENT. The values beside an unknown last tag are log 13. The row is the mailbox write of log 5, and the
Report Unit chooses at the end of the step (log 7). -/
def Obligations.StartArms : Prop :=
  ∀ (m : Mailbox) (s : State), Commanded m s → s.plan.pendingCommand = none → tailIsSkip s.table = false →
    s.capture.device = .stopped →
    let c := s.withMailbox 0x02 m
    (m.arg0.toNat ≤ 1 → m.arg1.toNat ≤ 1 →
      exec (.start m) s = .next (present (answer m.tag (0x50, 0x00) { c with
        capture := { s.capture with device := .armed, mode := if m.arg0.toNat = 1 then .single else .continuous }
        reg := { origin := none, mode := if m.arg1.toNat = 1 then .mark else .free, next := none, correction := 0,
                 markLost := 0 }
        table := { s.table with lastAllocated := none, sealTimer := .idle }
        lanes := Vector.ofFn fun n =>
          { state := if s.livePlan.run.laneEnable.getLsbD n.val then .seeking else .off
            progress := 0, tagKnown := false, lastSeq := 0, lastP := 0, context := .none, setAside := none,
            injection := none } })))
    ∧ ((2 ≤ m.arg0.toNat ∨ 2 ≤ m.arg1.toNat) →
      exec (.start m) s = .next (present (answer m.tag (0xE0, 0x03) c)))

/-- STOP (R171, R175, R176): in STOPPED there is nothing to do. In ARMED or RUNNING every lane goes OFF with its last tag
and injection kept and every open frame seals: one with a slot joins the seal queue FLUSHED, a slotless one a skip entry,
its lines in flight counted damaged; with no slot PATCHING the device is STOPPED with a STOP notice and the answer, else it
is DRAINING with STOP pending. The row is the mailbox write of log 5, and the Report Unit chooses at the end of the step
(log 7). The drain is tested once (log 21). -/
def Obligations.Stop : Prop :=
  ∀ (m : Mailbox) (s : State), Commanded m s → s.plan.pendingCommand = none →
    (s.capture.device = .stopped →
      exec (.stop m) s = .next (present (answer m.tag (0x50, 0x01) (s.withMailbox 0x03 m))))
    ∧ ((s.capture.device = .armed ∨ s.capture.device = .running) →
      ∃ t, exec (.stop m) s = .next t ∧ t.table.openFrames = [] ∧ t.lanes = lanesAllOff true s.lanes
        ∧ t.plan.live = s.plan.live ∧ t.reg.origin = s.reg.origin
        ∧ (∀ f ∈ s.table.openFrames,
            (∀ k, f.slot = some k →
              ∃ e, .slot e ∈ t.table.queue ∧ SealedEntry s.livePlan .flushed (s.cutsInto f.number) f e)
            ∧ (f.slot = none → ∃ x, .skip x ∈ t.table.queue ∧ SkipCovers s.livePlan (s.cutsInto f.number) f x))
        ∧ ((anyPatching t.table = false ∧ t.capture = { s.capture with device := .stopped, drainCause := .none }
            ∧ t.plan.pendingCommand = none ∧ Answered m.tag (0x50, 0x00) .stopped t
            ∧ t.report.stateNotice = some { device := .stopped, cause := .stop, generation := s.plan.generation,
                                            origin := s.reg.origin })
          ∨ (anyPatching t.table = true ∧ t.capture = { s.capture with device := .draining, drainCause := .stop }
            ∧ t.plan.pendingCommand = some (.stop m.tag))))

/-- ABORT (R178): in STOPPED it empties every injection and changes nothing else. In ARMED or RUNNING every lane goes OFF
with no injection, every open frame seals, one with a slot ABORTED with its slot READY, a slotless one in a skip entry, its
lines in flight counted damaged; every entry whose slot was PATCHING is FILL_ABANDONED, no slot stays PATCHING, the context
is IDLE, and the device is STOPPED with an ABORT notice and the answer. The row is the mailbox write of log 5, and the
Report Unit chooses at the end of the step (log 7). -/
def Obligations.Abort : Prop :=
  ∀ (m : Mailbox) (s : State), Commanded m s → s.plan.pendingCommand = none →
    let c := s.withMailbox 0x04 m
    let emptied : State :=
      { c with lanes := Vector.ofFn fun n => { s.lanes[n] with injection := none } }
    (s.capture.device = .stopped → (∃ n : Lane, s.lanes[n].injection ≠ none) →
      exec (.abort m) s = .next (present (answer m.tag (0x50, 0x00) emptied)))
    ∧ (s.capture.device = .stopped → (∀ n : Lane, s.lanes[n].injection = none) →
      exec (.abort m) s = .next (present (answer m.tag (0x50, 0x01) c)))
    ∧ ((s.capture.device = .armed ∨ s.capture.device = .running
          ∨ (s.capture.device = .draining ∧ s.capture.drainCause = .singleDone)) →
      ∃ t, exec (.abort m) s = .next t ∧ t.table.openFrames = [] ∧ t.lanes = lanesAllOff false s.lanes
        ∧ (∀ f ∈ s.table.openFrames,
            (∀ k, f.slot = some k →
              ∃ e, .slot e ∈ t.table.queue ∧ SealedEntry s.livePlan .aborted (s.cutsInto f.number) f e
                ∧ e.filled = false ∧ t.table.slots[k] = .ready)
            ∧ (f.slot = none → ∃ x, .skip x ∈ t.table.queue ∧ SkipCovers s.livePlan (s.cutsInto f.number) f x))
        ∧ (∀ e, .slot e ∈ s.table.queue → (∀ f ∈ s.table.openFrames, f.slot ≠ some e.slot) →
            s.table.slots[e.slot] = .patching →
            .slot { e with abandoned := true, patchList := none } ∈ t.table.queue ∧ t.table.slots[e.slot] = .ready)
        ∧ t.patch = .idle ∧ (∀ k : Fin 32, t.table.slots[k] ≠ .patching)
        ∧ t.capture = { s.capture with device := .stopped, drainCause := .none }
        ∧ t.plan.live = s.plan.live ∧ t.plan.pendingCommand = none ∧ Answered m.tag (0x50, 0x00) .stopped t
        ∧ t.report.stateNotice = some { device := .stopped, cause := .abort, generation := s.plan.generation,
                                        origin := s.reg.origin })

/-! ### Invariants of every step -/

/-- Every invariant below holds right after power-on reset, with every setting of the straps. -/
def Obligations.InvariantsHoldAtReset : Prop :=
  ∀ sel : Byte,
    let s := State.resetWith sel
    ShadowInv s ∧ PortInv s ∧ CaptureInv s ∧ ChainInv s ∧ RowsInv s ∧ CorrectionInv s ∧ RingInv s ∧ AttnInv s
      ∧ CountsInv s ∧ SlotInv s ∧ QueueInv s ∧ ChoiceInv s ∧ Quiet s

/-- R2, R154: every step keeps the shadow in canonical form and within the plan page, and the port holding a request while
one waits, with derived requests for what it holds. -/
def Obligations.StepKeepsTraffic : Prop :=
  (∀ s t : State, ShadowInv s → step s = .next t → ShadowInv t)
  ∧ (∀ s t : State, PortInv s → step s = .next t → PortInv t)

/-- R27, R68, R155: every step keeps the live plan absent exactly in DORMANT, no frame open in DORMANT, STOPPED and ARMED,
and every lane OFF that is not enabled in ARMED or RUNNING. -/
def Obligations.StepKeepsCapture : Prop := ∀ s t : State, CaptureInv s → step s = .next t → CaptureInv t

/-- R67, R68, R50: after every step at most four frames are open, with consecutive numbers and each start the end of the
frame before, and the next boundary is the end of the newest. -/
def Obligations.StepKeepsFrameChain : Prop := ∀ s t : State, ChainInv s → step s = .next t → ChainInv t

/-- R58: after every step each accepted line's row is below N, and N is 8 to FRAME_ROWS, in every open frame. -/
def Obligations.StepKeepsRows : Prop := ∀ s t : State, RowsInv s → step s = .next t → RowsInv t

/-- R34, R44, R64, R67, R145, R155: every step keeps the magnitude of the pending correction within MARK_MAX_STEP, and the
saturating counts and the run lists in their ranges. -/
def Obligations.StepKeepsRanges : Prop :=
  (∀ s t : State, CorrectionInv s → step s = .next t → CorrectionInv t)
  ∧ (∀ s t : State, CountsInv s → step s = .next t → CountsInv t)

/-- R138, R139, R152: every step keeps the unconsumed records within the ring, with an entry free for a presented record,
and ATTN high exactly while its condition holds. -/
def Obligations.StepKeepsRing : Prop :=
  (∀ s t : State, RingInv s → step s = .next t → RingInv t)
  ∧ (∀ s t : State, AttnInv s → step s = .next t → AttnInv t)

/-- R83, R84, R120, R121: after every step each slot has one owner: an open frame while FILLING, a seal-queue entry while
PATCHING or READY. Skip entries of the seal queue are adjacent at its head only, since one at the tail takes in the frame that
seals next. So the queue never holds more than 66 entries. What an entry takes in with its count held at 2^32 − 1 is log 28. -/
def Obligations.StepKeepsSlots : Prop :=
  (∀ s t : State, SlotInv s → step s = .next t → SlotInv t)
  ∧ (∀ s t : State, QueueInv s → step s = .next t → QueueInv t)
  ∧ ∀ s : State, SlotInv s → QueueInv s → s.table.queue.length ≤ 66

/-- After every step the Report Unit has nothing left that it could present (R142; that it chooses at the end of a step is
the model's choice, log 7). No step leaves an IDLE patch context with an entry PATCHING (R129), or a drain that is complete
and has not ended (R176; both are dealt with at the end of a step, log 21). -/
def Obligations.StepKeepsChoice : Prop :=
  (∀ s t : State, ChoiceInv s → step s = .next t → ChoiceInv t)
  ∧ ∀ s t : State, SlotInv s → Quiet s → step s = .next t → Quiet t
end

