-- ==== Sys2Proof/Laws/Memory.lean ====
section
/-! SUPPORT. Laws of the plan shadow as a buffer (R154): a read after a write, and the canonical form. -/

namespace Sys2Proof.Machine

theorem Memory.wfFrom_lower {lo lo' : Nat} {m : Memory} (h : m.wfFrom lo = true) (hl : lo' ≤ lo) :
    m.wfFrom lo' = true := by
  cases m with
  | nil => rfl
  | cons c rest =>
    simp only [Memory.wfFrom, Bool.and_eq_true, decide_eq_true_eq] at h ⊢
    exact ⟨⟨by omega, h.1.2⟩, h.2⟩

theorem Memory.read_below {m : Memory} {lo a : Nat} (h : m.wfFrom lo = true) (ha : a < lo) : m.read a = 0 := by
  cases m with
  | nil => rfl
  | cons c rest =>
    simp only [Memory.wfFrom, Bool.and_eq_true, decide_eq_true_eq] at h
    have h1 : a ≠ c.1 := by omega
    have h2 : a < c.1 := by omega
    simp only [Memory.read, if_neg h1, if_pos h2]

theorem Memory.write_wfFrom {m : Memory} {lo a : Nat} (v : Byte) (h : m.wfFrom lo = true) (ha : lo ≤ a) :
    (m.write a v).wfFrom lo = true := by
  induction m generalizing lo with
  | nil =>
    unfold Memory.write
    split
    · rfl
    · rename_i hv
      simpa [Memory.wfFrom, ha] using hv
  | cons c rest ih =>
    obtain ⟨k, b⟩ := c
    have h0 := h
    simp only [Memory.wfFrom, Bool.and_eq_true, decide_eq_true_eq] at h
    obtain ⟨⟨hk, hb⟩, hr⟩ := h
    simp only [Memory.write]
    split
    · split
      · exact h0
      · rename_i hlt hv
        simp only [Memory.wfFrom, Bool.and_eq_true, decide_eq_true_eq]
        exact ⟨⟨ha, hv⟩, ⟨by omega, hb⟩, hr⟩
    · split
      · split
        · exact Memory.wfFrom_lower hr (by omega)
        · rename_i heq hv
          simp only [Memory.wfFrom, Bool.and_eq_true, decide_eq_true_eq]
          exact ⟨⟨ha, hv⟩, heq ▸ hr⟩
      · simp only [Memory.wfFrom, Bool.and_eq_true, decide_eq_true_eq]
        exact ⟨⟨hk, hb⟩, ih hr (by omega)⟩

/-- A write of one byte keeps the canonical form. -/
theorem Memory.write_wf {m : Memory} (a : Nat) (v : Byte) (h : m.wf = true) : (m.write a v).wf = true :=
  Memory.write_wfFrom v h (Nat.zero_le a)

/-- A write of bytes keeps the canonical form. -/
theorem Memory.writeBytes_wf {m : Memory} (a : Nat) (vs : List Byte) (h : m.wf = true) :
    (m.writeBytes a vs).wf = true := by
  induction vs generalizing m a with
  | nil => exact h
  | cons v vs ih => exact ih (a + 1) (Memory.write_wf a v h)

theorem Memory.read_write_from {m : Memory} {lo : Nat} (h : m.wfFrom lo = true) (a : Nat) (v : Byte) (b : Nat) :
    (m.write a v).read b = if b = a then v else m.read b := by
  induction m generalizing lo with
  | nil =>
    simp only [Memory.write]
    split
    · rename_i hv
      simp [Memory.read, hv]
    · simp only [Memory.read]
      split <;> simp
  | cons c rest ih =>
    obtain ⟨k, w⟩ := c
    simp only [Memory.wfFrom, Bool.and_eq_true, decide_eq_true_eq] at h
    have hr := ih h.2
    have below := @Memory.read_below rest (k + 1)
    simp only [Memory.write]
    split
    · split
      · rename_i hlt hv
        subst hv
        by_cases hb : b = a
        · subst hb
          have : b ≠ k := by omega
          simp [Memory.read, this, hlt]
        · simp [hb]
      · by_cases hb : b = a
        · simp [Memory.read, hb]
        · by_cases hba : b < a
          · have h1 : b ≠ k := by omega
            have h2 : b < k := by omega
            simp [Memory.read, hb, hba, h1, h2]
          · simp [Memory.read, hb, hba]
    · split
      · rename_i hnl heq
        subst heq
        split
        · rename_i hv
          subst hv
          by_cases hb : b = a
          · subst hb
            simp [below h.2 (Nat.lt_succ_self b)]
          · by_cases hba : b < a
            · simp [Memory.read, hb, hba, below (a := b) h.2 (by omega)]
            · simp [Memory.read, hb, hba]
        · by_cases hb : b = a
          · simp [Memory.read, hb]
          · simp [Memory.read, hb]
      · rename_i hnl hne
        by_cases hb : b = k
        · subst hb
          have : b ≠ a := fun he => hne he.symm
          simp [Memory.read, this]
        · by_cases hbk : b < k
          · have : b ≠ a := by omega
            simp [Memory.read, hb, hbk, this]
          · simp [Memory.read, hb, hbk, hr]

/-- A read after a write of one byte: the byte written there, and the old byte elsewhere. -/
theorem Memory.read_write {m : Memory} (h : m.wf = true) (a : Nat) (v : Byte) (b : Nat) :
    (m.write a v).read b = if b = a then v else m.read b :=
  Memory.read_write_from h a v b

/-- A read outside the bytes written gives what it gave before. -/
theorem Memory.read_writeBytes_outside {m : Memory} (h : m.wf = true) (a : Nat) (vs : List Byte) (b : Nat)
    (hb : b < a ∨ a + vs.length ≤ b) : (m.writeBytes a vs).read b = m.read b := by
  induction vs generalizing m a with
  | nil => rfl
  | cons v vs ih =>
    simp only [List.length_cons] at hb
    have hne : b ≠ a := by omega
    rw [Memory.writeBytes, ih (Memory.write_wf a v h) (a + 1) (by omega), Memory.read_write h, if_neg hne]

/-- A read inside the bytes written gives the byte written there. -/
theorem Memory.read_writeBytes_inside {m : Memory} (h : m.wf = true) (a : Nat) (vs : List Byte) (i : Nat)
    (hi : i < vs.length) : (m.writeBytes a vs).read (a + i) = vs[i] := by
  induction vs generalizing m a i with
  | nil => exact absurd hi (Nat.not_lt_zero i)
  | cons v vs ih =>
    cases i with
    | zero =>
      rw [Memory.writeBytes, Memory.read_writeBytes_outside (Memory.write_wf a v h) (a + 1) vs _ (by omega),
        Memory.read_write h]
      simp
    | succ i =>
      have e : a + (i + 1) = (a + 1) + i := by omega
      rw [Memory.writeBytes, e, ih (Memory.write_wf a v h) (a + 1) i (by simpa using hi)]
      simp

/-- A number of `width` bytes survives little-endian writing and reading (R181). -/
theorem leNat_leBytes (width n : Nat) : leNat (leBytes width n) = n % 256 ^ width := by
  induction width generalizing n with
  | zero => simp [leBytes, leNat, Nat.mod_one]
  | succ w ih =>
    simp only [leBytes, leNat, ih]
    have hb : (BitVec.ofNat 8 n).toNat = n % 256 := by simp
    rw [hb, Nat.pow_succ, Nat.mul_comm (256 ^ w) 256, Nat.mod_mul]

theorem leBytes_length (width n : Nat) : (leBytes width n).length = width := by
  induction width generalizing n with
  | zero => rfl
  | succ w ih => simp [leBytes, ih]

/-- A field of the buffer depends on its own bytes only (R181). -/
theorem Memory.field_congr {m m' : Memory} (width off : Nat)
    (h : ∀ i, i < width → m.read (off + i) = m'.read (off + i)) : m.field width off = m'.field width off := by
  induction width generalizing off with
  | zero => rfl
  | succ w ih =>
    have h0 := h 0 (by omega)
    have hs := ih (off + 1) fun i hi => by
      have := h (i + 1) (by omega)
      rwa [Nat.add_assoc, Nat.add_comm 1 i]
    simp only [Nat.add_zero] at h0
    simp only [Memory.field, h0, hs]

/-- A field whose bytes are a list holds the number of that list (R181). -/
theorem Memory.field_of_bytes {m : Memory} (off : Nat) (bs : List Byte)
    (h : ∀ i (hi : i < bs.length), m.read (off + i) = bs[i]) : m.field bs.length off = leNat bs := by
  induction bs generalizing off with
  | nil => rfl
  | cons b bs ih =>
    have h0 := h 0 (by simp)
    have hs := ih (off + 1) fun i hi => by
      have := h (i + 1) (by simpa using hi)
      rw [Nat.add_assoc, Nat.add_comm 1 i]
      simpa using this
    simp only [Nat.add_zero, List.getElem_cons_zero] at h0
    simp only [List.length_cons, Memory.field, h0, hs, leNat]

/-- Byte j of a little-endian field (R181). -/
theorem leBytes_getElem? {n j : Nat} (v : Nat) (h : j < n) : (leBytes n v)[j]? = some (BitVec.ofNat 8 (v / 256 ^ j)) := by
  induction n generalizing v j with
  | zero => omega
  | succ n ih =>
    cases j with
    | zero => simp [leBytes]
    | succ j =>
      have hj : j < n := by omega
      simp [leBytes, ih (v / 256) hj, Nat.div_div_eq_div_mul, Nat.pow_succ, Nat.mul_comm]

/-- An entry of the phase map below F is the byte at its place (R91, R186). -/
@[simp] theorem readPhaseMap_of_lt {m : Memory} {phases : Nat} (i : Fin 4) (h : i.val < phases) :
    (readPhaseMap m phases)[i] = m.field 1 (offPhaseMap + i.val) := by
  simp [readPhaseMap, h]

/-- An entry of the phase map from F on stands as DISCARD: its byte is not read (R91, R186). -/
@[simp] theorem readPhaseMap_of_le {m : Memory} {phases : Nat} (i : Fin 4) (h : phases ≤ i.val) :
    (readPhaseMap m phases)[i] = Config.discard := by
  simp [readPhaseMap, Nat.not_lt.mpr h]

/-- The buffer of power-on reset is in canonical form. -/
theorem reset_shadow_wf : State.reset.plan.shadow.wf = true := rfl

end Sys2Proof.Machine
end

