-- ==== Sys2Proof/Laws/State.lean ====
section
/-! SUPPORT. One lemma per field per update of State: what each small update leaves unchanged, true by rfl. -/

namespace Sys2Proof.Machine

variable (s : State)

/-! ### raise -/

@[simp] theorem raise_planSel (k : Fin 52) (d : LatchDetail) : (raise k d s).planSel = s.planSel := rfl
@[simp] theorem raise_held (k : Fin 52) (d : LatchDetail) : (raise k d s).held = s.held := rfl
@[simp] theorem raise_offered (k : Fin 52) (d : LatchDetail) : (raise k d s).offered = s.offered := rfl
@[simp] theorem raise_memStream (k : Fin 52) (d : LatchDetail) : (raise k d s).memStream = s.memStream := rfl
@[simp] theorem raise_fabricOut (k : Fin 52) (d : LatchDetail) : (raise k d s).fabricOut = s.fabricOut := rfl
@[simp] theorem raise_lanes (k : Fin 52) (d : LatchDetail) : (raise k d s).lanes = s.lanes := rfl
@[simp] theorem raise_reg (k : Fin 52) (d : LatchDetail) : (raise k d s).reg = s.reg := rfl
@[simp] theorem raise_table (k : Fin 52) (d : LatchDetail) : (raise k d s).table = s.table := rfl
@[simp] theorem raise_patch (k : Fin 52) (d : LatchDetail) : (raise k d s).patch = s.patch := rfl
@[simp] theorem raise_plan (k : Fin 52) (d : LatchDetail) : (raise k d s).plan = s.plan := rfl
@[simp] theorem raise_capture (k : Fin 52) (d : LatchDetail) : (raise k d s).capture = s.capture := rfl
@[simp] theorem raise_pending (k : Fin 52) (d : LatchDetail) : (raise k d s).pending = s.pending := rfl

/-! ### evalAttn -/

@[simp] theorem evalAttn_planSel : (evalAttn s).planSel = s.planSel := rfl
@[simp] theorem evalAttn_held : (evalAttn s).held = s.held := rfl
@[simp] theorem evalAttn_offered : (evalAttn s).offered = s.offered := rfl
@[simp] theorem evalAttn_memStream : (evalAttn s).memStream = s.memStream := rfl
@[simp] theorem evalAttn_fabricOut : (evalAttn s).fabricOut = s.fabricOut := rfl
@[simp] theorem evalAttn_lanes : (evalAttn s).lanes = s.lanes := rfl
@[simp] theorem evalAttn_reg : (evalAttn s).reg = s.reg := rfl
@[simp] theorem evalAttn_table : (evalAttn s).table = s.table := rfl
@[simp] theorem evalAttn_patch : (evalAttn s).patch = s.patch := rfl
@[simp] theorem evalAttn_plan : (evalAttn s).plan = s.plan := rfl
@[simp] theorem evalAttn_capture : (evalAttn s).capture = s.capture := rfl
@[simp] theorem evalAttn_pending : (evalAttn s).pending = s.pending := rfl

/-! ### setConsumer -/

@[simp] theorem setConsumer_planSel (v : Count) : (setConsumer v s).planSel = s.planSel := rfl
@[simp] theorem setConsumer_held (v : Count) : (setConsumer v s).held = s.held := rfl
@[simp] theorem setConsumer_offered (v : Count) : (setConsumer v s).offered = s.offered := rfl
@[simp] theorem setConsumer_memStream (v : Count) : (setConsumer v s).memStream = s.memStream := rfl
@[simp] theorem setConsumer_fabricOut (v : Count) : (setConsumer v s).fabricOut = s.fabricOut := rfl
@[simp] theorem setConsumer_lanes (v : Count) : (setConsumer v s).lanes = s.lanes := rfl
@[simp] theorem setConsumer_reg (v : Count) : (setConsumer v s).reg = s.reg := rfl
@[simp] theorem setConsumer_table (v : Count) : (setConsumer v s).table = s.table := rfl
@[simp] theorem setConsumer_patch (v : Count) : (setConsumer v s).patch = s.patch := rfl
@[simp] theorem setConsumer_plan (v : Count) : (setConsumer v s).plan = s.plan := rfl
@[simp] theorem setConsumer_capture (v : Count) : (setConsumer v s).capture = s.capture := rfl
@[simp] theorem setConsumer_pending (v : Count) : (setConsumer v s).pending = s.pending := rfl

/-! ### resetRing -/

@[simp] theorem resetRing_planSel : (resetRing s).planSel = s.planSel := rfl
@[simp] theorem resetRing_held : (resetRing s).held = s.held := rfl
@[simp] theorem resetRing_offered : (resetRing s).offered = s.offered := rfl
@[simp] theorem resetRing_memStream : (resetRing s).memStream = s.memStream := rfl
@[simp] theorem resetRing_fabricOut : (resetRing s).fabricOut = s.fabricOut := rfl
@[simp] theorem resetRing_lanes : (resetRing s).lanes = s.lanes := rfl
@[simp] theorem resetRing_reg : (resetRing s).reg = s.reg := rfl
@[simp] theorem resetRing_table : (resetRing s).table = s.table := rfl
@[simp] theorem resetRing_patch : (resetRing s).patch = s.patch := rfl
@[simp] theorem resetRing_plan : (resetRing s).plan = s.plan := rfl
@[simp] theorem resetRing_capture : (resetRing s).capture = s.capture := rfl
@[simp] theorem resetRing_pending : (resetRing s).pending = s.pending := rfl

/-! ### answer -/

@[simp] theorem answer_planSel (tag : Byte) (r : ResultWord) : (answer tag r s).planSel = s.planSel := rfl
@[simp] theorem answer_held (tag : Byte) (r : ResultWord) : (answer tag r s).held = s.held := rfl
@[simp] theorem answer_offered (tag : Byte) (r : ResultWord) : (answer tag r s).offered = s.offered := rfl
@[simp] theorem answer_memStream (tag : Byte) (r : ResultWord) : (answer tag r s).memStream = s.memStream := rfl
@[simp] theorem answer_fabricOut (tag : Byte) (r : ResultWord) : (answer tag r s).fabricOut = s.fabricOut := rfl
@[simp] theorem answer_lanes (tag : Byte) (r : ResultWord) : (answer tag r s).lanes = s.lanes := rfl
@[simp] theorem answer_reg (tag : Byte) (r : ResultWord) : (answer tag r s).reg = s.reg := rfl
@[simp] theorem answer_table (tag : Byte) (r : ResultWord) : (answer tag r s).table = s.table := rfl
@[simp] theorem answer_patch (tag : Byte) (r : ResultWord) : (answer tag r s).patch = s.patch := rfl
@[simp] theorem answer_plan (tag : Byte) (r : ResultWord) : (answer tag r s).plan = s.plan := rfl
@[simp] theorem answer_capture (tag : Byte) (r : ResultWord) : (answer tag r s).capture = s.capture := rfl
@[simp] theorem answer_pending (tag : Byte) (r : ResultWord) : (answer tag r s).pending = s.pending := rfl

/-! ### handNotice -/

@[simp] theorem handNotice_planSel (device : DeviceState) (cause : NoticeCause) : (handNotice device cause s).planSel = s.planSel := rfl
@[simp] theorem handNotice_held (device : DeviceState) (cause : NoticeCause) : (handNotice device cause s).held = s.held := rfl
@[simp] theorem handNotice_offered (device : DeviceState) (cause : NoticeCause) : (handNotice device cause s).offered = s.offered := rfl
@[simp] theorem handNotice_memStream (device : DeviceState) (cause : NoticeCause) : (handNotice device cause s).memStream = s.memStream := rfl
@[simp] theorem handNotice_fabricOut (device : DeviceState) (cause : NoticeCause) : (handNotice device cause s).fabricOut = s.fabricOut := rfl
@[simp] theorem handNotice_lanes (device : DeviceState) (cause : NoticeCause) : (handNotice device cause s).lanes = s.lanes := rfl
@[simp] theorem handNotice_reg (device : DeviceState) (cause : NoticeCause) : (handNotice device cause s).reg = s.reg := rfl
@[simp] theorem handNotice_table (device : DeviceState) (cause : NoticeCause) : (handNotice device cause s).table = s.table := rfl
@[simp] theorem handNotice_patch (device : DeviceState) (cause : NoticeCause) : (handNotice device cause s).patch = s.patch := rfl
@[simp] theorem handNotice_plan (device : DeviceState) (cause : NoticeCause) : (handNotice device cause s).plan = s.plan := rfl
@[simp] theorem handNotice_capture (device : DeviceState) (cause : NoticeCause) : (handNotice device cause s).capture = s.capture := rfl
@[simp] theorem handNotice_pending (device : DeviceState) (cause : NoticeCause) : (handNotice device cause s).pending = s.pending := rfl

/-! ### presentWrite -/

@[simp] theorem presentWrite_planSel (kind : ReportKind) (addr : Nat) (data : List Byte) : (presentWrite kind addr data s).planSel = s.planSel := rfl
@[simp] theorem presentWrite_held (kind : ReportKind) (addr : Nat) (data : List Byte) : (presentWrite kind addr data s).held = s.held := rfl
@[simp] theorem presentWrite_offered (kind : ReportKind) (addr : Nat) (data : List Byte) : (presentWrite kind addr data s).offered = s.offered := rfl
@[simp] theorem presentWrite_memStream (kind : ReportKind) (addr : Nat) (data : List Byte) : (presentWrite kind addr data s).memStream = s.memStream := rfl
@[simp] theorem presentWrite_fabricOut (kind : ReportKind) (addr : Nat) (data : List Byte) : (presentWrite kind addr data s).fabricOut = s.fabricOut := rfl
@[simp] theorem presentWrite_lanes (kind : ReportKind) (addr : Nat) (data : List Byte) : (presentWrite kind addr data s).lanes = s.lanes := rfl
@[simp] theorem presentWrite_reg (kind : ReportKind) (addr : Nat) (data : List Byte) : (presentWrite kind addr data s).reg = s.reg := rfl
@[simp] theorem presentWrite_table (kind : ReportKind) (addr : Nat) (data : List Byte) : (presentWrite kind addr data s).table = s.table := rfl
@[simp] theorem presentWrite_patch (kind : ReportKind) (addr : Nat) (data : List Byte) : (presentWrite kind addr data s).patch = s.patch := rfl
@[simp] theorem presentWrite_plan (kind : ReportKind) (addr : Nat) (data : List Byte) : (presentWrite kind addr data s).plan = s.plan := rfl
@[simp] theorem presentWrite_capture (kind : ReportKind) (addr : Nat) (data : List Byte) : (presentWrite kind addr data s).capture = s.capture := rfl
@[simp] theorem presentWrite_pending (kind : ReportKind) (addr : Nat) (data : List Byte) : (presentWrite kind addr data s).pending = s.pending := rfl

/-! ### onLane -/

@[simp] theorem onLane_planSel (n : Lane) (f : LaneTracker → LaneTracker) : (onLane n f s).planSel = s.planSel := rfl
@[simp] theorem onLane_held (n : Lane) (f : LaneTracker → LaneTracker) : (onLane n f s).held = s.held := rfl
@[simp] theorem onLane_offered (n : Lane) (f : LaneTracker → LaneTracker) : (onLane n f s).offered = s.offered := rfl
@[simp] theorem onLane_memStream (n : Lane) (f : LaneTracker → LaneTracker) : (onLane n f s).memStream = s.memStream := rfl
@[simp] theorem onLane_fabricOut (n : Lane) (f : LaneTracker → LaneTracker) : (onLane n f s).fabricOut = s.fabricOut := rfl
@[simp] theorem onLane_reg (n : Lane) (f : LaneTracker → LaneTracker) : (onLane n f s).reg = s.reg := rfl
@[simp] theorem onLane_table (n : Lane) (f : LaneTracker → LaneTracker) : (onLane n f s).table = s.table := rfl
@[simp] theorem onLane_patch (n : Lane) (f : LaneTracker → LaneTracker) : (onLane n f s).patch = s.patch := rfl
@[simp] theorem onLane_report (n : Lane) (f : LaneTracker → LaneTracker) : (onLane n f s).report = s.report := rfl
@[simp] theorem onLane_plan (n : Lane) (f : LaneTracker → LaneTracker) : (onLane n f s).plan = s.plan := rfl
@[simp] theorem onLane_capture (n : Lane) (f : LaneTracker → LaneTracker) : (onLane n f s).capture = s.capture := rfl
@[simp] theorem onLane_pending (n : Lane) (f : LaneTracker → LaneTracker) : (onLane n f s).pending = s.pending := rfl

/-! ### setContext -/

@[simp] theorem setContext_planSel (n : Lane) (c : LineContext) : (setContext n c s).planSel = s.planSel := rfl
@[simp] theorem setContext_held (n : Lane) (c : LineContext) : (setContext n c s).held = s.held := rfl
@[simp] theorem setContext_offered (n : Lane) (c : LineContext) : (setContext n c s).offered = s.offered := rfl
@[simp] theorem setContext_memStream (n : Lane) (c : LineContext) : (setContext n c s).memStream = s.memStream := rfl
@[simp] theorem setContext_fabricOut (n : Lane) (c : LineContext) : (setContext n c s).fabricOut = s.fabricOut := rfl
@[simp] theorem setContext_reg (n : Lane) (c : LineContext) : (setContext n c s).reg = s.reg := rfl
@[simp] theorem setContext_table (n : Lane) (c : LineContext) : (setContext n c s).table = s.table := rfl
@[simp] theorem setContext_patch (n : Lane) (c : LineContext) : (setContext n c s).patch = s.patch := rfl
@[simp] theorem setContext_report (n : Lane) (c : LineContext) : (setContext n c s).report = s.report := rfl
@[simp] theorem setContext_plan (n : Lane) (c : LineContext) : (setContext n c s).plan = s.plan := rfl
@[simp] theorem setContext_capture (n : Lane) (c : LineContext) : (setContext n c s).capture = s.capture := rfl
@[simp] theorem setContext_pending (n : Lane) (c : LineContext) : (setContext n c s).pending = s.pending := rfl

/-! ### onFrame -/

@[simp] theorem onFrame_planSel (number : Count) (f : Frame → Frame) : (onFrame number f s).planSel = s.planSel := rfl
@[simp] theorem onFrame_held (number : Count) (f : Frame → Frame) : (onFrame number f s).held = s.held := rfl
@[simp] theorem onFrame_offered (number : Count) (f : Frame → Frame) : (onFrame number f s).offered = s.offered := rfl
@[simp] theorem onFrame_memStream (number : Count) (f : Frame → Frame) : (onFrame number f s).memStream = s.memStream := rfl
@[simp] theorem onFrame_fabricOut (number : Count) (f : Frame → Frame) : (onFrame number f s).fabricOut = s.fabricOut := rfl
@[simp] theorem onFrame_lanes (number : Count) (f : Frame → Frame) : (onFrame number f s).lanes = s.lanes := rfl
@[simp] theorem onFrame_reg (number : Count) (f : Frame → Frame) : (onFrame number f s).reg = s.reg := rfl
@[simp] theorem onFrame_patch (number : Count) (f : Frame → Frame) : (onFrame number f s).patch = s.patch := rfl
@[simp] theorem onFrame_report (number : Count) (f : Frame → Frame) : (onFrame number f s).report = s.report := rfl
@[simp] theorem onFrame_plan (number : Count) (f : Frame → Frame) : (onFrame number f s).plan = s.plan := rfl
@[simp] theorem onFrame_capture (number : Count) (f : Frame → Frame) : (onFrame number f s).capture = s.capture := rfl
@[simp] theorem onFrame_pending (number : Count) (f : Frame → Frame) : (onFrame number f s).pending = s.pending := rfl

/-! ### setSlot -/

@[simp] theorem setSlot_planSel (k : Fin 32) (st : SlotState) : (setSlot k st s).planSel = s.planSel := rfl
@[simp] theorem setSlot_held (k : Fin 32) (st : SlotState) : (setSlot k st s).held = s.held := rfl
@[simp] theorem setSlot_offered (k : Fin 32) (st : SlotState) : (setSlot k st s).offered = s.offered := rfl
@[simp] theorem setSlot_memStream (k : Fin 32) (st : SlotState) : (setSlot k st s).memStream = s.memStream := rfl
@[simp] theorem setSlot_fabricOut (k : Fin 32) (st : SlotState) : (setSlot k st s).fabricOut = s.fabricOut := rfl
@[simp] theorem setSlot_lanes (k : Fin 32) (st : SlotState) : (setSlot k st s).lanes = s.lanes := rfl
@[simp] theorem setSlot_reg (k : Fin 32) (st : SlotState) : (setSlot k st s).reg = s.reg := rfl
@[simp] theorem setSlot_patch (k : Fin 32) (st : SlotState) : (setSlot k st s).patch = s.patch := rfl
@[simp] theorem setSlot_report (k : Fin 32) (st : SlotState) : (setSlot k st s).report = s.report := rfl
@[simp] theorem setSlot_plan (k : Fin 32) (st : SlotState) : (setSlot k st s).plan = s.plan := rfl
@[simp] theorem setSlot_capture (k : Fin 32) (st : SlotState) : (setSlot k st s).capture = s.capture := rfl
@[simp] theorem setSlot_pending (k : Fin 32) (st : SlotState) : (setSlot k st s).pending = s.pending := rfl

/-! ### setCorrection -/

@[simp] theorem setCorrection_planSel (c : Int) : (setCorrection c s).planSel = s.planSel := rfl
@[simp] theorem setCorrection_held (c : Int) : (setCorrection c s).held = s.held := rfl
@[simp] theorem setCorrection_offered (c : Int) : (setCorrection c s).offered = s.offered := rfl
@[simp] theorem setCorrection_memStream (c : Int) : (setCorrection c s).memStream = s.memStream := rfl
@[simp] theorem setCorrection_fabricOut (c : Int) : (setCorrection c s).fabricOut = s.fabricOut := rfl
@[simp] theorem setCorrection_lanes (c : Int) : (setCorrection c s).lanes = s.lanes := rfl
@[simp] theorem setCorrection_table (c : Int) : (setCorrection c s).table = s.table := rfl
@[simp] theorem setCorrection_patch (c : Int) : (setCorrection c s).patch = s.patch := rfl
@[simp] theorem setCorrection_report (c : Int) : (setCorrection c s).report = s.report := rfl
@[simp] theorem setCorrection_plan (c : Int) : (setCorrection c s).plan = s.plan := rfl
@[simp] theorem setCorrection_capture (c : Int) : (setCorrection c s).capture = s.capture := rfl
@[simp] theorem setCorrection_pending (c : Int) : (setCorrection c s).pending = s.pending := rfl

/-! ### issue -/

@[simp] theorem issue_planSel (r : MemRequest) : (issue r s).planSel = s.planSel := rfl
@[simp] theorem issue_held (r : MemRequest) : (issue r s).held = s.held := rfl
@[simp] theorem issue_offered (r : MemRequest) : (issue r s).offered = s.offered := rfl
@[simp] theorem issue_fabricOut (r : MemRequest) : (issue r s).fabricOut = s.fabricOut := rfl
@[simp] theorem issue_lanes (r : MemRequest) : (issue r s).lanes = s.lanes := rfl
@[simp] theorem issue_reg (r : MemRequest) : (issue r s).reg = s.reg := rfl
@[simp] theorem issue_table (r : MemRequest) : (issue r s).table = s.table := rfl
@[simp] theorem issue_patch (r : MemRequest) : (issue r s).patch = s.patch := rfl
@[simp] theorem issue_report (r : MemRequest) : (issue r s).report = s.report := rfl
@[simp] theorem issue_plan (r : MemRequest) : (issue r s).plan = s.plan := rfl
@[simp] theorem issue_capture (r : MemRequest) : (issue r s).capture = s.capture := rfl
@[simp] theorem issue_pending (r : MemRequest) : (issue r s).pending = s.pending := rfl

/-! ### copyToShadow -/

@[simp] theorem copyToShadow_planSel (off : Nat) (data : List Byte) : (copyToShadow off data s).planSel = s.planSel := rfl
@[simp] theorem copyToShadow_held (off : Nat) (data : List Byte) : (copyToShadow off data s).held = s.held := rfl
@[simp] theorem copyToShadow_offered (off : Nat) (data : List Byte) : (copyToShadow off data s).offered = s.offered := rfl
@[simp] theorem copyToShadow_memStream (off : Nat) (data : List Byte) : (copyToShadow off data s).memStream = s.memStream := rfl
@[simp] theorem copyToShadow_fabricOut (off : Nat) (data : List Byte) : (copyToShadow off data s).fabricOut = s.fabricOut := rfl
@[simp] theorem copyToShadow_lanes (off : Nat) (data : List Byte) : (copyToShadow off data s).lanes = s.lanes := rfl
@[simp] theorem copyToShadow_reg (off : Nat) (data : List Byte) : (copyToShadow off data s).reg = s.reg := rfl
@[simp] theorem copyToShadow_table (off : Nat) (data : List Byte) : (copyToShadow off data s).table = s.table := rfl
@[simp] theorem copyToShadow_patch (off : Nat) (data : List Byte) : (copyToShadow off data s).patch = s.patch := rfl
@[simp] theorem copyToShadow_report (off : Nat) (data : List Byte) : (copyToShadow off data s).report = s.report := rfl
@[simp] theorem copyToShadow_capture (off : Nat) (data : List Byte) : (copyToShadow off data s).capture = s.capture := rfl
@[simp] theorem copyToShadow_pending (off : Nat) (data : List Byte) : (copyToShadow off data s).pending = s.pending := rfl

/-! ### takePresented -/

@[simp] theorem takePresented_planSel (w : ReportWrite) : (takePresented w s).planSel = s.planSel := rfl
@[simp] theorem takePresented_held (w : ReportWrite) : (takePresented w s).held = s.held := rfl
@[simp] theorem takePresented_offered (w : ReportWrite) : (takePresented w s).offered = s.offered := rfl
@[simp] theorem takePresented_fabricOut (w : ReportWrite) : (takePresented w s).fabricOut = s.fabricOut := rfl
@[simp] theorem takePresented_lanes (w : ReportWrite) : (takePresented w s).lanes = s.lanes := rfl
@[simp] theorem takePresented_reg (w : ReportWrite) : (takePresented w s).reg = s.reg := rfl
@[simp] theorem takePresented_table (w : ReportWrite) : (takePresented w s).table = s.table := rfl
@[simp] theorem takePresented_patch (w : ReportWrite) : (takePresented w s).patch = s.patch := rfl
@[simp] theorem takePresented_plan (w : ReportWrite) : (takePresented w s).plan = s.plan := rfl
@[simp] theorem takePresented_capture (w : ReportWrite) : (takePresented w s).capture = s.capture := rfl
@[simp] theorem takePresented_pending (w : ReportWrite) : (takePresented w s).pending = s.pending := rfl

/-! ### countRecord -/

@[simp] theorem countRecord_planSel : (countRecord s).planSel = s.planSel := rfl
@[simp] theorem countRecord_held : (countRecord s).held = s.held := rfl
@[simp] theorem countRecord_offered : (countRecord s).offered = s.offered := rfl
@[simp] theorem countRecord_memStream : (countRecord s).memStream = s.memStream := rfl
@[simp] theorem countRecord_fabricOut : (countRecord s).fabricOut = s.fabricOut := rfl
@[simp] theorem countRecord_lanes : (countRecord s).lanes = s.lanes := rfl
@[simp] theorem countRecord_reg : (countRecord s).reg = s.reg := rfl
@[simp] theorem countRecord_table : (countRecord s).table = s.table := rfl
@[simp] theorem countRecord_patch : (countRecord s).patch = s.patch := rfl
@[simp] theorem countRecord_plan : (countRecord s).plan = s.plan := rfl
@[simp] theorem countRecord_capture : (countRecord s).capture = s.capture := rfl
@[simp] theorem countRecord_pending : (countRecord s).pending = s.pending := rfl

/-! ### installPlan -/

@[simp] theorem installPlan_planSel (new : Plan) : (installPlan new s).planSel = s.planSel := rfl
@[simp] theorem installPlan_held (new : Plan) : (installPlan new s).held = s.held := rfl
@[simp] theorem installPlan_offered (new : Plan) : (installPlan new s).offered = s.offered := rfl
@[simp] theorem installPlan_memStream (new : Plan) : (installPlan new s).memStream = s.memStream := rfl
@[simp] theorem installPlan_fabricOut (new : Plan) : (installPlan new s).fabricOut = s.fabricOut := rfl
@[simp] theorem installPlan_lanes (new : Plan) : (installPlan new s).lanes = s.lanes := rfl
@[simp] theorem installPlan_reg (new : Plan) : (installPlan new s).reg = s.reg := rfl
@[simp] theorem installPlan_table (new : Plan) : (installPlan new s).table = s.table := rfl
@[simp] theorem installPlan_patch (new : Plan) : (installPlan new s).patch = s.patch := rfl
@[simp] theorem installPlan_report (new : Plan) : (installPlan new s).report = s.report := rfl
@[simp] theorem installPlan_capture (new : Plan) : (installPlan new s).capture = s.capture := rfl
@[simp] theorem installPlan_pending (new : Plan) : (installPlan new s).pending = s.pending := rfl

/-! ### emptyInjections -/

@[simp] theorem emptyInjections_planSel : (emptyInjections s).planSel = s.planSel := rfl
@[simp] theorem emptyInjections_held : (emptyInjections s).held = s.held := rfl
@[simp] theorem emptyInjections_offered : (emptyInjections s).offered = s.offered := rfl
@[simp] theorem emptyInjections_memStream : (emptyInjections s).memStream = s.memStream := rfl
@[simp] theorem emptyInjections_fabricOut : (emptyInjections s).fabricOut = s.fabricOut := rfl
@[simp] theorem emptyInjections_reg : (emptyInjections s).reg = s.reg := rfl
@[simp] theorem emptyInjections_table : (emptyInjections s).table = s.table := rfl
@[simp] theorem emptyInjections_patch : (emptyInjections s).patch = s.patch := rfl
@[simp] theorem emptyInjections_report : (emptyInjections s).report = s.report := rfl
@[simp] theorem emptyInjections_plan : (emptyInjections s).plan = s.plan := rfl
@[simp] theorem emptyInjections_capture : (emptyInjections s).capture = s.capture := rfl
@[simp] theorem emptyInjections_pending : (emptyInjections s).pending = s.pending := rfl

/-! ### abandonPatching -/

@[simp] theorem abandonPatching_planSel : (abandonPatching s).planSel = s.planSel := by unfold abandonPatching; rfl
@[simp] theorem abandonPatching_held : (abandonPatching s).held = s.held := by unfold abandonPatching; rfl
@[simp] theorem abandonPatching_offered : (abandonPatching s).offered = s.offered := by unfold abandonPatching; rfl
@[simp] theorem abandonPatching_memStream : (abandonPatching s).memStream = s.memStream := by unfold abandonPatching; rfl
@[simp] theorem abandonPatching_fabricOut : (abandonPatching s).fabricOut = s.fabricOut := by unfold abandonPatching; rfl
@[simp] theorem abandonPatching_lanes : (abandonPatching s).lanes = s.lanes := by unfold abandonPatching; rfl
@[simp] theorem abandonPatching_reg : (abandonPatching s).reg = s.reg := by unfold abandonPatching; rfl
@[simp] theorem abandonPatching_report : (abandonPatching s).report = s.report := by unfold abandonPatching; rfl
@[simp] theorem abandonPatching_plan : (abandonPatching s).plan = s.plan := by unfold abandonPatching; rfl
@[simp] theorem abandonPatching_capture : (abandonPatching s).capture = s.capture := by unfold abandonPatching; rfl
@[simp] theorem abandonPatching_pending : (abandonPatching s).pending = s.pending := by unfold abandonPatching; rfl

/-! ### Fields inside the changed block -/

@[simp] theorem raise_producer (k : Fin 52) (d : LatchDetail) :
    (raise k d s).report.producer = s.report.producer := rfl
@[simp] theorem raise_consumer (k : Fin 52) (d : LatchDetail) :
    (raise k d s).report.consumer = s.report.consumer := rfl
@[simp] theorem raise_presented (k : Fin 52) (d : LatchDetail) :
    (raise k d s).report.presented = s.report.presented := rfl
@[simp] theorem raise_ackWaiting (k : Fin 52) (d : LatchDetail) :
    (raise k d s).report.ackWaiting = s.report.ackWaiting := rfl
@[simp] theorem raise_stateNotice (k : Fin 52) (d : LatchDetail) :
    (raise k d s).report.stateNotice = s.report.stateNotice := rfl
@[simp] theorem raise_attn (k : Fin 52) (d : LatchDetail) : (raise k d s).report.attn = s.report.attn := rfl

@[simp] theorem answer_ackWaiting (tag : Byte) (r : ResultWord) :
    (answer tag r s).report.ackWaiting = some ⟨tag, r.1, r.2, s.capture.device⟩ := rfl
@[simp] theorem answer_latches (tag : Byte) (r : ResultWord) :
    (answer tag r s).report.latches = s.report.latches := rfl
@[simp] theorem answer_producer (tag : Byte) (r : ResultWord) :
    (answer tag r s).report.producer = s.report.producer := rfl
@[simp] theorem answer_consumer (tag : Byte) (r : ResultWord) :
    (answer tag r s).report.consumer = s.report.consumer := rfl
@[simp] theorem answer_presented (tag : Byte) (r : ResultWord) :
    (answer tag r s).report.presented = s.report.presented := rfl

@[simp] theorem handNotice_stateNotice (device : DeviceState) (cause : NoticeCause) :
    (handNotice device cause s).report.stateNotice = some ⟨device, cause, s.plan.generation, s.reg.origin⟩ := rfl
@[simp] theorem handNotice_latches (device : DeviceState) (cause : NoticeCause) :
    (handNotice device cause s).report.latches = s.report.latches := rfl
@[simp] theorem handNotice_producer (device : DeviceState) (cause : NoticeCause) :
    (handNotice device cause s).report.producer = s.report.producer := rfl
@[simp] theorem handNotice_consumer (device : DeviceState) (cause : NoticeCause) :
    (handNotice device cause s).report.consumer = s.report.consumer := rfl
@[simp] theorem handNotice_presented (device : DeviceState) (cause : NoticeCause) :
    (handNotice device cause s).report.presented = s.report.presented := rfl

@[simp] theorem presentWrite_presented (kind : ReportKind) (addr : Nat) (data : List Byte) :
    (presentWrite kind addr data s).report.presented = some ⟨kind, addr, data⟩ := rfl
@[simp] theorem presentWrite_latches (kind : ReportKind) (addr : Nat) (data : List Byte) :
    (presentWrite kind addr data s).report.latches = s.report.latches := rfl

@[simp] theorem setSlot_openFrames (k : Fin 32) (st : SlotState) :
    (setSlot k st s).table.openFrames = s.table.openFrames := rfl
@[simp] theorem setSlot_queue (k : Fin 32) (st : SlotState) : (setSlot k st s).table.queue = s.table.queue := rfl
@[simp] theorem setSlot_sealTimer (k : Fin 32) (st : SlotState) :
    (setSlot k st s).table.sealTimer = s.table.sealTimer := rfl
@[simp] theorem onFrame_slots (number : Count) (f : Frame → Frame) :
    (onFrame number f s).table.slots = s.table.slots := rfl
@[simp] theorem onFrame_queue (number : Count) (f : Frame → Frame) :
    (onFrame number f s).table.queue = s.table.queue := rfl
@[simp] theorem onFrame_sealTimer (number : Count) (f : Frame → Frame) :
    (onFrame number f s).table.sealTimer = s.table.sealTimer := rfl
@[simp] theorem onFrame_lastAllocated (number : Count) (f : Frame → Frame) :
    (onFrame number f s).table.lastAllocated = s.table.lastAllocated := rfl
@[simp] theorem onFrame_length (number : Count) (f : Frame → Frame) :
    (onFrame number f s).table.openFrames.length = s.table.openFrames.length := by simp [onFrame]

@[simp] theorem copyToShadow_live (off : Nat) (data : List Byte) : (copyToShadow off data s).plan.live = s.plan.live := rfl
@[simp] theorem copyToShadow_generation (off : Nat) (data : List Byte) :
    (copyToShadow off data s).plan.generation = s.plan.generation := rfl
@[simp] theorem copyToShadow_pendingCommand (off : Nat) (data : List Byte) :
    (copyToShadow off data s).plan.pendingCommand = s.plan.pendingCommand := rfl
@[simp] theorem copyToShadow_shadow (off : Nat) (data : List Byte) :
    (copyToShadow off data s).plan.shadow = s.plan.shadow.writeBytes off data := rfl
@[simp] theorem installPlan_shadow (new : Plan) : (installPlan new s).plan.shadow = s.plan.shadow := rfl
@[simp] theorem installPlan_live (new : Plan) : (installPlan new s).plan.live = some new := rfl
@[simp] theorem issue_memStream (r : MemRequest) : (issue r s).memStream = r :: s.memStream := rfl
@[simp] theorem setCorrection_correction (c : Int) : (setCorrection c s).reg.correction = c := rfl
@[simp] theorem setConsumer_consumer (v : Count) : (setConsumer v s).report.consumer = v := rfl
@[simp] theorem setConsumer_producer (v : Count) : (setConsumer v s).report.producer = s.report.producer := rfl
@[simp] theorem resetRing_producer : (resetRing s).report.producer = 0 := rfl
@[simp] theorem resetRing_consumer : (resetRing s).report.consumer = 0 := rfl
@[simp] theorem countRecord_producer : (countRecord s).report.producer = s.report.producer + 1 := rfl
@[simp] theorem countRecord_producerOwed : (countRecord s).report.producerOwed = true := rfl

/-! ### Reading one lane, latch or slot after an update -/

@[simp] theorem onLane_same (n : Lane) (f : LaneTracker → LaneTracker) :
    (onLane n f s).lanes[(n : Nat)] = f s.lanes[(n : Nat)] := by
  simp [onLane]

theorem onLane_other (n m : Lane) (f : LaneTracker → LaneTracker) (h : m ≠ n) : (onLane n f s).lanes[m] = s.lanes[m] := by
  have h' : (n : Nat) ≠ (m : Nat) := fun e => h (Fin.ext e.symm)
  simp [onLane, Vector.getElem_set_ne _ _ h']

@[simp] theorem setContext_same (n : Lane) (c : LineContext) :
    (setContext n c s).lanes[(n : Nat)] = { s.lanes[(n : Nat)] with context := c } := by
  simp [setContext]

theorem setContext_other (n m : Lane) (c : LineContext) (h : m ≠ n) : (setContext n c s).lanes[m] = s.lanes[m] :=
  onLane_other s n m _ h

@[simp] theorem raise_latch_same (k : Fin 52) (d : LatchDetail) :
    (raise k d s).report.latches[(k : Nat)] = Latch.raise d s.report.latches[(k : Nat)] := by
  simp [raise, ReportUnit.onLatch]

theorem raise_latch_other (k j : Fin 52) (d : LatchDetail) (h : j ≠ k) :
    (raise k d s).report.latches[j] = s.report.latches[j] := by
  have h' : (k : Nat) ≠ (j : Nat) := fun e => h (Fin.ext e.symm)
  simp [raise, ReportUnit.onLatch, Vector.getElem_set_ne _ _ h']

@[simp] theorem setSlot_same (k : Fin 32) (st : SlotState) : (setSlot k st s).table.slots[(k : Nat)] = st := by
  simp [setSlot]

theorem setSlot_other (k j : Fin 32) (st : SlotState) (h : j ≠ k) :
    (setSlot k st s).table.slots[j] = s.table.slots[j] := by
  have h' : (k : Nat) ≠ (j : Nat) := fun e => h (Fin.ext e.symm)
  simp [setSlot, Vector.getElem_set_ne _ _ h']

end Sys2Proof.Machine
end

