-- ==== Sys2Proof/Laws/Inner.lean ====
section
/-! SUPPORT. What the operations of the lane, frame, registration and patch blocks leave alone: the traffic path, the plan,
and the Report Unit's counts, presented write and attention (`Inner`). One lemma for each operation. -/

namespace Sys2Proof.Machine

/-- The second state differs from the first only in lanes, registration, frame table, patch context, capture control, the
pending command, the latches, the waiting acknowledge word and the state notice. -/
structure Inner (s t : State) : Prop where
  planSel        : t.planSel = s.planSel
  held           : t.held = s.held
  offered        : t.offered = s.offered
  memStream      : t.memStream = s.memStream
  fabricOut      : t.fabricOut = s.fabricOut
  pending        : t.pending = s.pending
  shadow         : t.plan.shadow = s.plan.shadow
  live           : t.plan.live = s.plan.live
  generation     : t.plan.generation = s.plan.generation
  producer       : t.report.producer = s.report.producer
  consumer       : t.report.consumer = s.report.consumer
  producerOwed   : t.report.producerOwed = s.report.producerOwed
  snapshotWrites : t.report.snapshotWrites = s.report.snapshotWrites
  presented      : t.report.presented = s.report.presented
  attnTimer      : t.report.attnTimer = s.report.attnTimer
  attn           : t.report.attn = s.report.attn

theorem Inner.rfl {s : State} : Inner s s :=
  ⟨Eq.refl _, Eq.refl _, Eq.refl _, Eq.refl _, Eq.refl _, Eq.refl _, Eq.refl _, Eq.refl _, Eq.refl _, Eq.refl _, Eq.refl _,
    Eq.refl _, Eq.refl _, Eq.refl _, Eq.refl _, Eq.refl _⟩

theorem Inner.trans {s t u : State} (h : Inner s t) (k : Inner t u) : Inner s u :=
  ⟨k.planSel.trans h.planSel, k.held.trans h.held, k.offered.trans h.offered, k.memStream.trans h.memStream,
    k.fabricOut.trans h.fabricOut, k.pending.trans h.pending, k.shadow.trans h.shadow, k.live.trans h.live,
    k.generation.trans h.generation, k.producer.trans h.producer, k.consumer.trans h.consumer,
    k.producerOwed.trans h.producerOwed, k.snapshotWrites.trans h.snapshotWrites, k.presented.trans h.presented,
    k.attnTimer.trans h.attnTimer, k.attn.trans h.attn⟩

theorem Inner.livePlan {s t : State} (h : Inner s t) : t.livePlan = s.livePlan := by
  unfold State.livePlan; rw [h.live]

theorem Inner.planBase {s t : State} (h : Inner s t) : t.planBase = s.planBase := by
  unfold State.planBase; rw [h.planSel]

theorem inner_ite (c : Prop) [Decidable c] {s a b : State} (ha : Inner s a) (hb : Inner s b) :
    Inner s (if c then a else b) := by
  split
  · exact ha
  · exact hb

/-! ### Flags and shared operations -/

theorem raise_inner (k : Fin 52) (d : LatchDetail) (s : State) : Inner s (raise k d s) := by constructor <;> rfl
theorem answer_inner (tag : Byte) (r : ResultWord) (s : State) : Inner s (answer tag r s) := by constructor <;> rfl
theorem handNotice_inner (d : DeviceState) (c : NoticeCause) (s : State) : Inner s (handNotice d c s) := by
  constructor <;> rfl
theorem onLane_inner (n : Lane) (f : LaneTracker → LaneTracker) (s : State) : Inner s (onLane n f s) := by
  constructor <;> rfl
theorem setContext_inner (n : Lane) (c : LineContext) (s : State) : Inner s (setContext n c s) := by constructor <;> rfl
theorem onFrame_inner (k : Count) (f : Frame → Frame) (s : State) : Inner s (onFrame k f s) := by constructor <;> rfl
theorem setSlot_inner (k : Fin 32) (st : SlotState) (s : State) : Inner s (setSlot k st s) := by constructor <;> rfl
theorem setCorrection_inner (c : Int) (s : State) : Inner s (setCorrection c s) := by constructor <;> rfl

/-- A change of the lanes, the registration, the frame table, the patch context or capture control alone. -/
theorem inner_of_blocks (s : State) (lanes : Vector LaneTracker 8) (reg : Registration) (table : FrameTable)
    (patch : PatchContext) (capture : Capture) :
    Inner s { s with lanes := lanes, reg := reg, table := table, patch := patch, capture := capture } := by
  constructor <;> rfl

theorem cutLine_inner (n : Lane) (s : State) : Inner s (cutLine n s) := by
  unfold cutLine
  split
  · exact onFrame_inner _ _ _
  · exact Inner.rfl

theorem laneOff_inner (n : Lane) (s : State) : Inner s (laneOff n s) :=
  (cutLine_inner n s).trans (onLane_inner _ _ _)

theorem foldl_inner {α : Type} (f : State → α → State) (hf : ∀ s a, Inner s (f s a)) (l : List α) (s : State) :
    Inner s (l.foldl f s) := by
  induction l generalizing s with
  | nil => exact Inner.rfl
  | cons a l ih => exact (hf s a).trans (ih _)

theorem lanesOff_inner (s : State) : Inner s (lanesOff s) := foldl_inner _ (fun s n => laneOff_inner n s) _ s

/-! ### Registration -/

theorem recompute_inner (s : State) : Inner s (recompute s) := by
  unfold recompute
  split
  · exact Inner.rfl
  · split
    · exact Inner.rfl
    · exact inner_of_blocks s _ _ _ _ _

theorem fixNewest_inner (s : State) : Inner s (fixNewest s) := by
  unfold fixNewest
  split
  · exact Inner.rfl
  · split
    · exact Inner.rfl
    · exact inner_of_blocks s _ _ _ _ _

theorem takeMark_inner (frame : Count) (e : Int) (s : State) : Inner s (takeMark frame e s) := by
  unfold takeMark
  dsimp only
  refine Inner.trans ?_ (recompute_inner _)
  exact (onFrame_inner frame _ s).trans (inner_of_blocks _ _ _ _ _ _)

theorem evaluateMark_inner (n : Lane) (mark : Bool) (frame : Count) (row : Nat) (s : State) :
    Inner s (evaluateMark n mark frame row s) := by
  unfold evaluateMark
  split
  · exact Inner.rfl
  · split
    · dsimp only
      split
      · exact raise_inner _ _ _
      · exact takeMark_inner _ _ _
    · exact Inner.rfl

theorem countMarkLost_inner (f : Frame) (s : State) : Inner s (countMarkLost f s) := by
  unfold countMarkLost
  split
  · exact Inner.rfl
  · dsimp only
    split
    · refine Inner.trans ?_ (raise_inner _ _ _)
      exact inner_of_blocks s _ _ _ _ _
    · exact inner_of_blocks s _ _ _ _ _

/-! ### Sealing -/

theorem loadSealTimer_inner (s : State) : Inner s (loadSealTimer s) := by
  unfold loadSealTimer
  split
  · exact Inner.rfl
  · split
    · exact inner_of_blocks s _ _ _ _ _
    · exact Inner.rfl

theorem enqueueSealed_inner (c : SealCause) (f : Frame) (s : State) : Inner s (enqueueSealed c f s) := by
  unfold enqueueSealed
  split
  · exact inner_of_blocks s _ _ _ _ _
  · dsimp only
    refine Inner.trans ?_ (setSlot_inner _ _ _)
    exact inner_of_blocks s _ _ _ _ _

theorem fixIfOnly_inner (s : State) : Inner s (fixIfOnly s) := by
  unfold fixIfOnly
  split
  · exact fixNewest_inner s
  · exact Inner.rfl

theorem sealFrame_inner (c : SealCause) (f : Frame) (rest : List Frame) (s : State) : Inner s (sealFrame c f rest s) := by
  unfold sealFrame
  dsimp only
  refine Inner.trans ?_ (enqueueSealed_inner _ _ _)
  refine Inner.trans ?_ (countMarkLost_inner _ _)
  exact inner_of_blocks s _ _ _ _ _

theorem sealOldest_inner (c : SealCause) (s : State) : Inner s (sealOldest c s) := by
  unfold sealOldest
  refine (fixIfOnly_inner s).trans ?_
  dsimp only
  split
  · exact Inner.rfl
  · exact sealFrame_inner _ _ _ _

theorem singleEnd_inner (s : State) : Inner s (singleEnd s) := by
  unfold singleEnd
  split
  · refine Inner.trans ?_ (lanesOff_inner _)
    exact inner_of_blocks s _ _ _ _ _
  · exact Inner.rfl

theorem sealAndTurn_inner (c : SealCause) (s : State) : Inner s (sealAndTurn c s) :=
  (sealOldest_inner c s).trans ((singleEnd_inner _).trans (loadSealTimer_inner _))

theorem cascade_inner (fuel : Nat) (s : State) : Inner s (cascade fuel s) := by
  induction fuel generalizing s with
  | zero => exact Inner.rfl
  | succ k ih =>
    unfold cascade
    split
    · exact (sealAndTurn_inner _ s).trans (ih _)
    · exact Inner.rfl

theorem evalSealTest_inner (s : State) : Inner s (evalSealTest s) := cascade_inner _ s

theorem sealWithCascade_inner (c : SealCause) (s : State) : Inner s (sealWithCascade c s) :=
  (sealAndTurn_inner c s).trans (evalSealTest_inner _)

theorem sealEach_inner (c : SealCause) (fuel : Nat) (s : State) : Inner s (sealEach c fuel s) := by
  induction fuel generalizing s with
  | zero => exact Inner.rfl
  | succ k ih => exact (sealOldest_inner c s).trans (ih _)

theorem sealAll_inner (c : SealCause) (s : State) : Inner s (sealAll c s) := sealEach_inner c _ s

/-! ### Attribution -/

theorem allocateSlot_inner (number : Count) (s : State) : Inner s (allocateSlot number s).2 := by
  unfold allocateSlot
  split
  · dsimp only
    exact (setSlot_inner _ _ s).trans (inner_of_blocks _ _ _ _ _ _)
  · exact raise_inner _ _ _

theorem forceSeal_inner (s : State) : Inner s (forceSeal s) := by
  unfold forceSeal
  split
  · exact sealWithCascade_inner _ _
  · exact Inner.rfl

theorem openFrame_inner (b : Boundary) (s : State) : Inner s (openFrame b s) := by
  unfold openFrame
  dsimp only
  refine Inner.trans ?_ (recompute_inner _)
  exact (((setCorrection_inner 0 s).trans (forceSeal_inner _)).trans (allocateSlot_inner b.frame _)).trans
    (inner_of_blocks _ _ _ _ _ _)

theorem timerOnEndSeen_inner (before : Bool) (s : State) : Inner s (timerOnEndSeen before s) := by
  unfold timerOnEndSeen
  split
  · exact Inner.rfl
  · split
    · exact loadSealTimer_inner s
    · exact Inner.rfl

theorem placeLine_inner (n : Lane) (i q : Nat) (time : Count) (s : State) : Inner s (placeLine n i q time s) := by
  unfold placeLine
  dsimp only
  refine Inner.trans ?_ (timerOnEndSeen_inner _ _)
  refine inner_ite _ (Inner.trans ?_ (recompute_inner _)) ?_
  · exact inner_of_blocks s _ _ _ _ _
  · exact inner_of_blocks s _ _ _ _ _

theorem placeInOpen_inner (n : Lane) (i q : Nat) (time : Count) (s : State) :
    Inner s (placeInOpen n i q time s).2 := by
  unfold placeInOpen
  split
  · exact Inner.rfl
  · split
    · exact Inner.rfl
    · split
      · exact Inner.rfl
      · exact placeLine_inner _ _ _ _ _

theorem openAndPlace_inner (n : Lane) (b : Boundary) (q : Nat) (time : Count) (s : State) :
    Inner s (openAndPlace n b q time s).2 :=
  (fixNewest_inner s).trans ((openFrame_inner b _).trans (placeLine_inner _ _ _ _ _))

theorem attributeContinuous_inner (n : Lane) (line : Line) (s : State) :
    Inner s (attributeContinuous n line s).2 := by
  unfold attributeContinuous
  dsimp only
  repeat' split
  all_goals first
    | exact Inner.rfl
    | exact placeInOpen_inner _ _ _ _ _
    | exact openAndPlace_inner _ _ _ _ _

theorem passSingle_inner (n : Lane) (s : State) : Inner s (passSingle n s) := by
  unfold passSingle
  dsimp only
  refine Inner.trans ?_ (timerOnEndSeen_inner _ _)
  exact (fixNewest_inner s).trans (inner_of_blocks _ _ _ _ _ _)

theorem attributeSingle_inner (n : Lane) (line : Line) (s : State) : Inner s (attributeSingle n line s).2 := by
  unfold attributeSingle
  split
  · exact Inner.rfl
  · dsimp only
    split
    · exact Inner.rfl
    · split
      · exact passSingle_inner n s
      · exact placeInOpen_inner _ _ _ _ _

theorem attributeLine_inner (n : Lane) (line : Line) (s : State) : Inner s (attributeLine n line s).2 := by
  unfold attributeLine
  split
  · exact attributeContinuous_inner n line s
  · exact attributeSingle_inner n line s

theorem setOrigin_inner (n : Lane) (line : Line) (q residue : Nat) (s : State) :
    Inner s (setOrigin n line q residue s) := by
  unfold setOrigin
  dsimp only
  have h : Inner s (placeLine n 0 q line.time (handNotice .running .origin
      { openFrame (originBoundary (line.pos - BitVec.ofNat 32 q) residue)
          { s with reg := { s.reg with origin := some (line.pos - BitVec.ofNat 32 q) } } with
        capture := { (openFrame (originBoundary (line.pos - BitVec.ofNat 32 q) residue)
          { s with reg := { s.reg with origin := some (line.pos - BitVec.ofNat 32 q) } }).capture with
            device := .running } })) := by
    refine Inner.trans ?_ (placeLine_inner _ _ _ _ _)
    refine Inner.trans ?_ (handNotice_inner _ _ _)
    refine Inner.trans ?_ (inner_of_blocks _ _ _ _ _ _)
    refine Inner.trans ?_ (openFrame_inner _ _)
    exact inner_of_blocks s _ _ _ _ _
  split
  · exact h
  · exact h.trans (onFrame_inner _ _ _)

/-! ### Lane Trackers -/

theorem burstInPlace_inner (n : Lane) (bytes : List Byte) (s : State) : Inner s (burstInPlace n bytes s).1 :=
  setContext_inner _ _ _

theorem rejectBurst_inner (n : Lane) (addr off : Nat) (tag : Byte) (bytes : List Byte) (s : State) :
    Inner s (rejectBurst n addr off tag bytes s).1 := raise_inner _ _ _

theorem takeLine_inner (n : Lane) (x : LineExtent) (frame : Count) (q : Nat) (s : State) :
    Inner s (takeLine n x frame q s) := setContext_inner _ _ _

theorem runLine_inner (n : Lane) (line : Line) (x : LineExtent) (s : State) : Inner s (runLine n line x s) := by
  unfold runLine
  dsimp only
  refine (attributeLine_inner n line s).trans ?_
  split
  · refine Inner.trans ?_ (evaluateMark_inner _ _ _ _ _)
    split
    · exact takeLine_inner _ _ _ _ _
    · exact Inner.trans (takeLine_inner _ _ _ _ _) (evalSealTest_inner _)
  · exact setContext_inner _ _ _
  · exact (setContext_inner _ _ _).trans (evalSealTest_inner _)
  · exact (setContext_inner _ _ _).trans (raise_inner _ _ _)
  · refine Inner.trans ?_ (evalSealTest_inner _)
    refine Inner.trans ?_ (setContext_inner _ _ _)
    exact Inner.trans (raise_inner _ _ _) (onLane_inner _ _ _)

theorem armLine_inner (n : Lane) (line : Line) (x : LineExtent) (s : State) : Inner s (armLine n line x s) := by
  unfold armLine
  split
  · exact setContext_inner _ _ _
  · dsimp only
    split
    · refine Inner.trans ?_ (evaluateMark_inner _ _ _ _ _)
      exact Inner.trans (setOrigin_inner n line _ _ s) (takeLine_inner _ _ _ _ _)
    · exact Inner.trans (setOrigin_inner n line _ _ s) (takeLine_inner _ _ _ _ _)

theorem handOn_inner (n : Lane) (line : Line) (x : LineExtent) (s : State) : Inner s (handOn n line x s) := by
  unfold handOn
  split
  · exact armLine_inner _ _ _ _
  · exact runLine_inner _ _ _ _
  · exact setContext_inner _ _ _
  · exact setContext_inner _ _ _
  · exact setContext_inner _ _ _

theorem raiseLock_inner (n : Lane) (r : LockResult) (s : State) : Inner s (raiseLock n r s) := by
  unfold raiseLock
  split
  · exact Inner.rfl
  · exact raise_inner _ _ _

theorem lockAndPlace_inner (n : Lane) (t : LineTag) (x : LineExtent) (s : State) : Inner s (lockAndPlace n t x s) := by
  unfold lockAndPlace
  dsimp only
  split
  · refine Inner.trans ?_ (handOn_inner _ _ _ _)
    exact Inner.trans (onLane_inner _ _ _) (raiseLock_inner _ _ _)
  · split
    · refine Inner.trans ?_ (evalSealTest_inner _)
      refine Inner.trans ?_ (setContext_inner _ _ _)
      exact Inner.trans (onLane_inner _ _ _) (raiseLock_inner _ _ _)
    · refine Inner.trans ?_ (setContext_inner _ _ _)
      exact Inner.trans (onLane_inner _ _ _) (raiseLock_inner _ _ _)

theorem malformedBurst_inner (n : Lane) (addr off code slot : Nat) (bytes : List Byte) (s : State) :
    Inner s (malformedBurst n addr off code slot bytes s).1 := (raise_inner _ _ _).trans (setContext_inner _ _ _)

theorem beginLine_inner (n : Lane) (addr off : Nat) (fired : Option InjectionKind) (bytes : List Byte) (s : State) :
    Inner s (beginLine n addr off fired bytes s).1 := by
  unfold beginLine
  dsimp only
  split
  · refine Inner.trans ?_ (malformedBurst_inner _ _ _ _ _ _ _)
    exact Inner.trans (cutLine_inner n s) (onLane_inner _ _ _)
  · refine Inner.trans ?_ (burstInPlace_inner _ _ _)
    refine Inner.trans ?_ (lockAndPlace_inner _ _ _ _)
    exact Inner.trans (cutLine_inner n s) (onLane_inner _ _ _)

theorem startLine_inner (n : Lane) (addr off : Nat) (tag : Byte) (bytes : List Byte) (s : State) :
    Inner s (startLine n addr off tag bytes s).1 := by
  unfold startLine
  dsimp only
  split
  · dsimp only
    refine Inner.trans ?_ (onLane_inner _ _ _)
    exact onLane_inner n _ s
  · refine Inner.trans ?_ (rejectBurst_inner _ _ _ _ _ _)
    exact Inner.trans (onLane_inner n _ s) (onLane_inner _ _ _)
  · exact Inner.trans (onLane_inner n _ s) (beginLine_inner _ _ _ _ _ _)

theorem continuationFault_inner (n : Lane) (addr off code slot : Nat) (bytes : List Byte) (s : State) :
    Inner s (continuationFault n addr off code slot bytes s).1 :=
  (cutLine_inner n s).trans (malformedBurst_inner _ _ _ _ _ _ _)

theorem continueLine_inner (n : Lane) (addr off : Nat) (bytes : List Byte) (s : State) :
    Inner s (continueLine n addr off bytes s).1 := by
  unfold continueLine
  dsimp only
  repeat' split
  all_goals first
    | exact continuationFault_inner _ _ _ _ _ _ _
    | exact burstInPlace_inner _ _ _
    | exact Inner.rfl

theorem continueBurst_inner (n : Lane) (addr off : Nat) (tag : Byte) (bytes : List Byte) (s : State) :
    Inner s (continueBurst n addr off tag bytes s).1 := by
  unfold continueBurst
  dsimp only
  repeat' split
  all_goals first
    | exact continueLine_inner _ _ _ _ _
    | exact rejectBurst_inner _ _ _ _ _ _
    | exact Inner.rfl

theorem landingBurst_inner (n : Lane) (addr off : Nat) (tag : Byte) (data : List Byte) (s : State) :
    Inner s (landingBurst n addr off tag data s).1 := by
  unfold landingBurst
  dsimp only
  repeat' split
  all_goals first
    | exact startLine_inner _ _ _ _ _ _
    | exact continueBurst_inner _ _ _ _ _ _
    | exact rejectBurst_inner _ _ _ _ _ _
    | exact Inner.rfl

/-! ### Patch Engine and drains -/

theorem finishPatch_inner (k : Fin 32) (s : State) : Inner s (finishPatch k s) := by
  unfold finishPatch
  refine Inner.trans ?_ (setSlot_inner _ _ _)
  exact inner_of_blocks s _ _ _ _ _

theorem takeUpEach_inner (fuel : Nat) (s : State) : Inner s (takeUpEach fuel s) := by
  induction fuel generalizing s with
  | zero => exact Inner.rfl
  | succ k ih =>
    unfold takeUpEach
    split
    · exact Inner.rfl
    · split
      · exact Inner.rfl
      · split
        · exact inner_of_blocks s _ _ _ _ _
        · exact (finishPatch_inner _ _).trans (ih _)

theorem takeUp_inner (s : State) : Inner s (takeUp s) := takeUpEach_inner _ s

theorem advancePatch_inner (w : PatchWork) (s : State) : Inner s (advancePatch w s) := by
  unfold advancePatch
  split
  · exact inner_of_blocks s _ _ _ _ _
  · exact finishPatch_inner _ _

theorem abandonPatching_inner (s : State) : Inner s (abandonPatching s) := by
  unfold abandonPatching
  exact inner_of_blocks s _ _ _ _ _

theorem answerStop_inner (s : State) : Inner s (answerStop s) := by
  unfold answerStop
  split
  · exact Inner.trans (t := { s with plan := { s.plan with pendingCommand := none } }) (by constructor <;> rfl)
      (answer_inner _ _ _)
  · exact Inner.rfl

theorem completeDrain_inner (s : State) : Inner s (completeDrain s) := by
  unfold completeDrain
  dsimp only
  split
  · refine Inner.trans ?_ (answerStop_inner _)
    refine Inner.trans ?_ (handNotice_inner _ _ _)
    exact inner_of_blocks s _ _ _ _ _
  · refine Inner.trans ?_ (handNotice_inner _ _ _)
    exact inner_of_blocks s _ _ _ _ _
  · exact inner_of_blocks s _ _ _ _ _

theorem drainTest_inner (s : State) : Inner s (drainTest s) := by
  unfold drainTest
  split
  · exact completeDrain_inner s
  · exact Inner.rfl

theorem settle_inner (s : State) : Inner s (settle s) := (takeUp_inner s).trans (drainTest_inner _)

/-! ### Capture commands -/

theorem beginCapture_inner (mode : CaptureMode) (origin : OriginMode) (s : State) :
    Inner s (beginCapture mode origin s) := by
  unfold beginCapture
  exact inner_of_blocks s _ _ _ _ _

theorem beginDrain_inner (tag : Byte) (s : State) : Inner s (beginDrain tag s) := by
  unfold beginDrain
  dsimp only
  refine Inner.trans ?_ (settle_inner _)
  refine Inner.trans ?_ (sealAll_inner _ _)
  refine Inner.trans ?_ (lanesOff_inner _)
  constructor <;> rfl

theorem emptyInjections_inner (s : State) : Inner s (emptyInjections s) := by
  unfold emptyInjections
  exact inner_of_blocks s _ _ _ _ _

theorem abortCapture_inner (s : State) : Inner s (abortCapture s) := by
  unfold abortCapture
  dsimp only
  refine Inner.trans ?_ (handNotice_inner _ _ _)
  refine Inner.trans ?_ (inner_of_blocks _ _ _ _ _ _)
  refine Inner.trans ?_ (abandonPatching_inner _)
  refine Inner.trans ?_ (sealAll_inner _ _)
  exact Inner.trans (lanesOff_inner s) (emptyInjections_inner _)

theorem doFlush_inner (s : State) : Inner s (doFlush s).1 := by
  unfold doFlush
  split
  · exact Inner.rfl
  · exact (sealWithCascade_inner _ _).trans (settle_inner _)


theorem doStart_inner (a b : Count) (s : State) : Inner s (doStart a b s).1 := by
  unfold doStart
  split
  · exact Inner.rfl
  · dsimp only
    exact beginCapture_inner _ _ s

theorem doStop_inner (tag : Byte) (s : State) : Inner s (doStop tag s).1 := by
  unfold doStop
  split
  · exact Inner.rfl
  · dsimp only
    exact beginDrain_inner tag s

theorem doAbort_inner (s : State) : Inner s (doAbort s).1 := by
  unfold doAbort
  split
  · dsimp only
    exact emptyInjections_inner s
  · dsimp only
    exact abortCapture_inner s

theorem doRelease_inner (a : Count) (s : State) : Inner s (doRelease a s).1 := by
  unfold doRelease
  split
  · dsimp only
    split
    · exact setSlot_inner _ _ s
    · exact Inner.rfl
  · exact Inner.rfl

theorem doInject_inner (a b c : Count) (s : State) : Inner s (doInject a b c s).1 := by
  unfold doInject
  split
  · dsimp only
    split
    · exact Inner.rfl
    · split
      · exact Inner.rfl
      · dsimp only
        exact onLane_inner _ _ s
  · exact Inner.rfl

/-- The commands other than COMMIT, SNAPSHOT and CLEAR_ERRORS leave the traffic path, the plan, the counts and the presented
write alone. -/
theorem perform_inner (c : MailCommand) (x : TakenCommand) (s : State)
    (h : c ≠ .commit ∧ c ≠ .snapshot ∧ c ≠ .clearErrors) : Inner s (perform c x s).1 := by
  cases c with
  | commit => exact absurd rfl h.1
  | snapshot => exact absurd rfl h.2.1
  | clearErrors => exact absurd rfl h.2.2
  | start => exact doStart_inner _ _ s
  | stop => exact doStop_inner _ s
  | abort => exact doAbort_inner s
  | flush => exact doFlush_inner s
  | release => exact doRelease_inner _ s
  | inject => exact doInject_inner _ _ _ s

end Sys2Proof.Machine
end

