-- ==== Sys2Proof/Laws/Path.lean ====
section
/-! SUPPORT. What the Report Unit's choice, the commands and the Fabric Port's service leave alone. -/

namespace Sys2Proof.Machine

/-! ### The Report Unit's choice -/

/-- The Report Unit's choice changes the Report Unit only, and in it neither the counts, nor attention, nor the state notice's
content, nor what a latch holds beyond its notice-presented flag. -/
structure Chosen (s t : State) : Prop where
  only        : t = { s with report := t.report }
  producer    : t.report.producer = s.report.producer
  consumer    : t.report.consumer = s.report.consumer
  attnTimer   : t.report.attnTimer = s.report.attnTimer
  attn        : t.report.attn = s.report.attn
  stateNotice : t.report.stateNotice = s.report.stateNotice
  standing    : ∀ k : Fin 52, t.report.latches[k].standing = s.report.latches[k].standing
  detail      : ∀ k : Fin 52, t.report.latches[k].detail = s.report.latches[k].detail
  count       : ∀ k : Fin 52, t.report.latches[k].count = s.report.latches[k].count

theorem Chosen.rfl {s : State} : Chosen s s :=
  ⟨Eq.refl _, Eq.refl _, Eq.refl _, Eq.refl _, Eq.refl _, Eq.refl _, fun _ => Eq.refl _, fun _ => Eq.refl _,
    fun _ => Eq.refl _⟩

/-- A change of the Report Unit that keeps what `Chosen` names. -/
theorem chosen_of_report (s : State) (r : ReportUnit) (hp : r.producer = s.report.producer)
    (hc : r.consumer = s.report.consumer) (ht : r.attnTimer = s.report.attnTimer) (ha : r.attn = s.report.attn)
    (hn : r.stateNotice = s.report.stateNotice) (hl : r.latches = s.report.latches) :
    Chosen s { s with report := r } := by
  refine ⟨Eq.refl _, hp, hc, ht, ha, hn, ?_, ?_, ?_⟩ <;> intro k <;> simp only [hl]

theorem onLatch_presented_chosen (s : State) (k : Fin 52) (w : Option ReportWrite) :
    Chosen s { s with report :=
      { s.report.onLatch k (fun l => { l with presented := true }) with presented := w } } := by
  refine ⟨Eq.refl _, Eq.refl _, Eq.refl _, Eq.refl _, Eq.refl _, Eq.refl _, ?_, ?_, ?_⟩ <;> intro j <;>
    simp only [ReportUnit.onLatch, Fin.getElem_fin, Vector.getElem_set] <;> split <;> simp_all

theorem chooseRecord_chosen (s : State) : Chosen s (chooseRecord s) := by
  unfold chooseRecord
  split
  · exact chosen_of_report s _ (Eq.refl _) (Eq.refl _) (Eq.refl _) (Eq.refl _) (Eq.refl _) (Eq.refl _)
  · split
    · exact onLatch_presented_chosen s _ _
    · split
      · exact chosen_of_report s _ (Eq.refl _) (Eq.refl _) (Eq.refl _) (Eq.refl _) (Eq.refl _) (Eq.refl _)
      · exact Chosen.rfl

theorem chooseWrite_chosen (s : State) : Chosen s (chooseWrite s) := by
  unfold chooseWrite
  split
  · exact chosen_of_report s _ (Eq.refl _) (Eq.refl _) (Eq.refl _) (Eq.refl _) (Eq.refl _) (Eq.refl _)
  · split
    · exact chosen_of_report s _ (Eq.refl _) (Eq.refl _) (Eq.refl _) (Eq.refl _) (Eq.refl _) (Eq.refl _)
    · split
      · exact chosen_of_report s _ (Eq.refl _) (Eq.refl _) (Eq.refl _) (Eq.refl _) (Eq.refl _) (Eq.refl _)
      · split
        · exact chooseRecord_chosen s
        · exact Chosen.rfl

theorem present_chosen (s : State) : Chosen s (present s) := by
  unfold present
  split
  · exact Chosen.rfl
  · exact chooseWrite_chosen s

/-- A presented write stays as it is (R142). -/
theorem present_of_presented (s : State) (h : s.report.presented.isSome = true) : present s = s := by
  unfold present; rw [if_pos h]

/-! ### The traffic path through one command -/

/-- The traffic path, the straps, the shadow and the waiting commands of two states agree. -/
structure Path (s t : State) : Prop where
  planSel   : t.planSel = s.planSel
  held      : t.held = s.held
  offered   : t.offered = s.offered
  memStream : t.memStream = s.memStream
  fabricOut : t.fabricOut = s.fabricOut
  pending   : t.pending = s.pending
  shadow    : t.plan.shadow = s.plan.shadow

theorem Path.rfl {s : State} : Path s s :=
  ⟨Eq.refl _, Eq.refl _, Eq.refl _, Eq.refl _, Eq.refl _, Eq.refl _, Eq.refl _⟩

theorem Path.trans {s t u : State} (h : Path s t) (k : Path t u) : Path s u :=
  ⟨k.planSel.trans h.planSel, k.held.trans h.held, k.offered.trans h.offered, k.memStream.trans h.memStream,
    k.fabricOut.trans h.fabricOut, k.pending.trans h.pending, k.shadow.trans h.shadow⟩

theorem Inner.path {s t : State} (h : Inner s t) : Path s t :=
  ⟨h.planSel, h.held, h.offered, h.memStream, h.fabricOut, h.pending, h.shadow⟩

theorem Chosen.path {s t : State} (h : Chosen s t) : Path s t := by
  rw [h.only]; constructor <;> rfl

theorem path_of_report (s : State) (r : ReportUnit) : Path s { s with report := r } := by constructor <;> rfl

theorem setConsumer_path (v : Count) (s : State) : Path s (setConsumer v s) := by constructor <;> rfl
theorem resetRing_path (s : State) : Path s (resetRing s) := by constructor <;> rfl
theorem evalAttn_path (s : State) : Path s (evalAttn s) := by constructor <;> rfl
theorem countRecord_path (s : State) : Path s (countRecord s) := by constructor <;> rfl
theorem installPlan_path (p : Plan) (s : State) : Path s (installPlan p s) := by constructor <;> rfl

theorem consumerActs_path (v : Count) (s : State) : Path s (consumerActs v s) := by
  unfold consumerActs
  split
  · exact Path.rfl
  · dsimp only
    split
    · exact Path.rfl
    · split
      · exact (raise_inner _ _ _).path
      · split
        · exact setConsumer_path _ _
        · exact setConsumer_path _ _

theorem enableLane_inner (old new : Plan) (n : Lane) (s : State) : Inner s (enableLane old new n s) := by
  unfold enableLane
  split
  · exact onLane_inner _ _ _
  · split
    · exact laneOff_inner _ _
    · exact Inner.rfl

theorem applyLaneEnable_inner (old new : Plan) (s : State) : Inner s (applyLaneEnable old new s) := by
  unfold applyLaneEnable
  dsimp only
  split
  · split
    · exact (foldl_inner _ (fun s n => enableLane_inner old new n s) _ s).trans (evalSealTest_inner _)
    · exact foldl_inner _ (fun s n => enableLane_inner old new n s) _ s
  · exact Inner.rfl

theorem applyMaxStep_inner (old new : Plan) (s : State) : Inner s (applyMaxStep old new s) := by
  unfold applyMaxStep
  split
  · exact Inner.rfl
  · exact (setCorrection_inner _ s).trans (recompute_inner _)

theorem applyPlanes_inner (old new : Plan) (s : State) : Inner s (applyPlanes old new s) := by
  unfold applyPlanes
  split
  · exact Inner.rfl
  · exact inner_of_blocks s _ _ _ _ _

theorem applyRing_path (old new : Plan) (s : State) : Path s (applyRing old new s) := by
  unfold applyRing
  split
  · exact Path.rfl
  · exact resetRing_path s

theorem applyThreshold_path (old new : Plan) (s : State) : Path s (applyThreshold old new s) := by
  unfold applyThreshold
  split
  · exact Path.rfl
  · exact evalAttn_path s

theorem takeFirstPlan_path (new : Plan) (s : State) : Path s (takeFirstPlan new s) := by
  unfold takeFirstPlan
  dsimp only
  refine Path.trans ?_ (resetRing_path _)
  refine Path.trans (installPlan_path new s) ?_
  constructor <;> rfl

theorem takePlan_path (old new : Plan) (s : State) : Path s (takePlan old new s) := by
  unfold takePlan
  refine Path.trans ?_ (settle_inner _).path
  refine Path.trans ?_ (applyThreshold_path _ _ _)
  refine Path.trans ?_ (applyLaneEnable_inner _ _ _).path
  refine Path.trans ?_ (applyMaxStep_inner _ _ _).path
  refine Path.trans ?_ (applyRing_path _ _ _)
  exact Path.trans (installPlan_path _ _) (applyPlanes_inner _ _ _).path

theorem commitPlan_path (p : Plan) (s : State) : Path s (commitPlan p s).1 := by
  unfold commitPlan
  repeat' split
  all_goals first
    | exact Path.rfl
    | exact takeFirstPlan_path _ _
    | exact takePlan_path _ _ _

theorem doSnapshot_path (tag : Byte) (s : State) : Path s (doSnapshot tag s).1 := by
  unfold doSnapshot
  dsimp only
  constructor <;> rfl

theorem doClearErrors_path (s : State) : Path s (doClearErrors s).1 := by
  unfold doClearErrors
  split
  · exact path_of_report s _
  · exact Path.rfl

theorem perform_path (c : MailCommand) (x : TakenCommand) (s : State) : Path s (perform c x s).1 := by
  by_cases h : c ≠ .commit ∧ c ≠ .snapshot ∧ c ≠ .clearErrors
  · exact (perform_inner c x s h).path
  · cases c with
    | commit => exact commitPlan_path _ s
    | snapshot => exact doSnapshot_path _ s
    | clearErrors => exact doClearErrors_path s
    | start => exact absurd ⟨nofun, nofun, nofun⟩ h
    | stop => exact absurd ⟨nofun, nofun, nofun⟩ h
    | abort => exact absurd ⟨nofun, nofun, nofun⟩ h
    | flush => exact absurd ⟨nofun, nofun, nofun⟩ h
    | release => exact absurd ⟨nofun, nofun, nofun⟩ h
    | inject => exact absurd ⟨nofun, nofun, nofun⟩ h

theorem answerWith_path (tag : Byte) (s : State) (r : State × Option ResultWord) (h : Path s r.1) :
    Path s (answerWith tag r) := by
  unfold answerWith
  split
  · exact h
  · exact h.trans (answer_inner _ _ _).path

/-- A command changes no part of the traffic path, and not the shadow. -/
theorem takeCommand_path (x : TakenCommand) (s : State) : Path s (takeCommand x s) := by
  unfold takeCommand
  split
  · exact (answer_inner _ _ _).path
  · split
    · exact (answer_inner _ _ _).path
    · split
      · exact answerWith_path _ s _ (perform_path _ _ s)
      · exact (answer_inner _ _ _).path

/-! ### Taking requests -/

theorem hold_held_derived (r : FabricRequest) (lane : Option Lane) (ds : List Derived) (s : State) (h : HeldRequest)
    (hh : (hold r lane ds s).held = some h) : h.derived ≠ [] := by
  unfold hold at hh
  split at hh
  · exact absurd hh (by simp)
  · simp only [Option.some.injEq] at hh
    rw [← hh]; simp

/-- What taking a request leaves alone. -/
structure Taken (s t : State) : Prop where
  planSel   : t.planSel = s.planSel
  offered   : t.offered = s.offered
  memStream : t.memStream = s.memStream
  fabricOut : t.fabricOut = s.fabricOut
  pending   : t.pending = s.pending
  derived   : ∀ h, t.held = some h → h.derived ≠ []

theorem hold_taken (r : FabricRequest) (lane : Option Lane) (ds : List Derived) (s t : State) (h : Path s t) :
    Taken s (hold r lane ds t) := by
  refine ⟨?_, ?_, ?_, ?_, ?_, hold_held_derived r lane ds t⟩
  · unfold hold; split <;> exact h.planSel
  · unfold hold; split <;> exact h.offered
  · unfold hold; split <;> exact h.memStream
  · unfold hold; split <;> exact h.fabricOut
  · unfold hold; split <;> exact h.pending

theorem Taken.path {s t u : State} (h : Taken s t) (k : Path t u) : Taken s u :=
  ⟨k.planSel.trans h.planSel, k.offered.trans h.offered, k.memStream.trans h.memStream, k.fabricOut.trans h.fabricOut,
    k.pending.trans h.pending, fun x hx => h.derived x (k.held ▸ hx)⟩

/-- A copy into the shadow. -/
theorem copyToShadow_taken {s t : State} (off : Nat) (data : List Byte) (h : Taken s t) :
    Taken s (copyToShadow off data t) :=
  ⟨h.planSel, h.offered, h.memStream, h.fabricOut, h.pending, h.derived⟩

theorem planConsumer_path (off len : Nat) (s : State) : Path s (planConsumer off len s) := by
  unfold planConsumer
  split
  · exact consumerActs_path _ s
  · exact Path.rfl

theorem planCommand_path (off len : Nat) (s : State) : Path s (planCommand off len s) := by
  unfold planCommand
  split
  · exact takeCommand_path _ s
  · exact Path.rfl

theorem planWriteEffect_taken {s t : State} (w : FabricWrite) (h : Taken s t) : Taken s (planWriteEffect w t) := by
  unfold planWriteEffect
  refine Taken.path ?_ (present_chosen _).path
  refine Taken.path ?_ (planCommand_path _ _ _)
  exact Taken.path (copyToShadow_taken _ _ h) (planConsumer_path _ _ _)

theorem landingEffect_taken (n : Lane) (w : FabricWrite) (s : State) : Taken s (landingEffect n w s) := by
  unfold landingEffect
  refine Taken.path ?_ (present_chosen _).path
  exact hold_taken _ _ _ _ _ ((landingBurst_inner _ _ _ _ _ _).path.trans (settle_inner _).path)

theorem takeWrite_taken (w : FabricWrite) (s : State) : Taken s (takeWrite w s) := by
  unfold takeWrite
  generalize classify s w.addr.toNat = c
  cases c with
  | plan => exact planWriteEffect_taken _ (hold_taken _ _ _ _ _ Path.rfl)
  | landing n => exact landingEffect_taken n w s
  | pass => exact hold_taken _ _ _ _ _ Path.rfl

/-- Taking a request leaves the straps, the offered requests, the streams and the waiting commands alone, and what is then
held has derived requests. -/
theorem takeRequest_taken (r : FabricRequest) (s : State) : Taken s (takeRequest r s) := by
  cases r with
  | read a len tag =>
    show Taken s (hold (.read a len tag) none [{ kind := .forward, req := .read a.toNat len tag }] s)
    exact hold_taken _ _ _ _ _ Path.rfl
  | write w => exact takeWrite_taken w s

/-- Serving leaves the straps, the streams and the waiting commands alone. -/
theorem serveList_outputs (l : List FabricRequest) (s : State) :
    (serveList l s).planSel = s.planSel ∧ (serveList l s).memStream = s.memStream
      ∧ (serveList l s).fabricOut = s.fabricOut ∧ (serveList l s).pending = s.pending := by
  induction l generalizing s with
  | nil => exact ⟨rfl, rfl, rfl, rfl⟩
  | cons r rest ih =>
    unfold serveList
    split
    · exact ⟨rfl, rfl, rfl, rfl⟩
    · have h := takeRequest_taken r s
      obtain ⟨a, b, c, d⟩ := ih (takeRequest r s)
      exact ⟨a.trans h.planSel, b.trans h.memStream, c.trans h.fabricOut, d.trans h.pending⟩

theorem serve_memStream (s : State) : (serve s).memStream = s.memStream := (serveList_outputs _ s).2.1
theorem serve_planSel (s : State) : (serve s).planSel = s.planSel := (serveList_outputs _ s).1
theorem serve_fabricOut (s : State) : (serve s).fabricOut = s.fabricOut := (serveList_outputs _ s).2.2.1
theorem serve_pending (s : State) : (serve s).pending = s.pending := (serveList_outputs _ s).2.2.2

/-- A free port takes an offered request at once (R2). -/
theorem offer_free (r : FabricRequest) (s : State) (h : s.held = none ∧ s.offered = []) :
    offer r s = takeRequest r s := by
  unfold offer; rw [if_pos h]

/-- While the port holds a request, an offered one waits behind the others (R2). -/
theorem offer_held (r : FabricRequest) (s : State) (hh : s.held.isSome = true) :
    offer r s = { s with offered := s.offered ++ [r] } := by
  have hn : ¬(s.held = none ∧ s.offered = []) := fun h => by rw [h.1] at hh; exact absurd hh (by decide)
  unfold offer serve
  rw [if_neg hn]
  cases h : s.offered with
  | nil => simp [serveList, hh]
  | cons a rest => simp [serveList, hh]

/-- With nothing offered there is nothing to serve. -/
theorem serve_none (s : State) (h : s.offered = []) : serve s = s := by
  unfold serve; rw [h, serveList]; cases s; simp only at h; subst h; rfl

end Sys2Proof.Machine
end

