-- ==== Sys2Proof/Laws/Quiet.lean ====
section
/-! SUPPORT. What a part that has nothing left to do by itself stays at: the Report Unit's choice, the Patch Engine's take-up
and the drain's test; what a free port does with each kind of request; and what the lock rule's latch and a line without a
mark leave as they are. -/

namespace Sys2Proof.Machine

/-! ### The Report Unit's choice -/

/-- What makes the Report Unit present nothing: a write is presented already, or nothing waits that it could present. -/
abbrev NothingToPresent (s : State) : Prop :=
  s.report.presented.isSome = true
    ∨ (s.report.producerOwed = false ∧ s.report.ackWaiting = none ∧ s.report.snapshotWrites = []
        ∧ (ringHasRoom s = true →
            s.report.stateNotice = none ∧ s.report.lowestDue = none ∧ offeredHead s.table = none))

theorem presentRecord_presented (k : RecordKind) (d : List Byte) (s : State) :
    (presentRecord k d s).report.presented.isSome = true := rfl

theorem chooseRecord_eq_iff (s : State) (h : s.report.presented.isSome = false) :
    chooseRecord s = s ↔ s.report.stateNotice = none ∧ s.report.lowestDue = none ∧ offeredHead s.table = none := by
  have key : ∀ t : State, t.report.presented.isSome = true → t ≠ s := fun t ht e => by rw [e, h] at ht; cases ht
  unfold chooseRecord
  cases h1 : s.report.stateNotice with
  | some x => simp only [reduceCtorEq, false_and, iff_false]; exact key _ rfl
  | none =>
    cases h2 : s.report.lowestDue with
    | some k => simp only [reduceCtorEq, false_and, and_false, iff_false]; exact key _ rfl
    | none =>
      cases h3 : offeredHead s.table with
      | some e => simp only [reduceCtorEq, and_false, iff_false]; exact key _ rfl
      | none => simp

theorem present_eq_iff (s : State) : present s = s ↔ NothingToPresent s := by
  unfold present NothingToPresent
  cases hp : s.report.presented.isSome with
  | true => simp
  | false =>
    have key : ∀ t : State, t.report.presented.isSome = true → t ≠ s := fun t ht e => by rw [e, hp] at ht; cases ht
    simp only [Bool.false_eq_true, if_false, false_or]
    unfold chooseWrite
    cases h1 : s.report.producerOwed with
    | true => simp only [if_true, false_and, iff_false, Bool.true_eq_false]; exact key _ rfl
    | false =>
      simp only [Bool.false_eq_true, if_false, true_and]
      cases h2 : s.report.ackWaiting with
      | some a => simp only [reduceCtorEq, false_and, iff_false]; exact key _ rfl
      | none =>
        cases h3 : s.report.snapshotWrites with
        | cons w rest => simp only [reduceCtorEq, false_and, and_false, iff_false]; exact key _ rfl
        | nil =>
          simp only [true_and]
          cases h4 : ringHasRoom s with
          | false => simp
          | true =>
            simp only [if_true, forall_const]
            exact chooseRecord_eq_iff s hp

/-- The choice depends on the Report Unit, the live plan and the offered head alone. -/
theorem present_fixed {s t : State} (h : present s = s) (hr : t.report = s.report) (hl : t.plan.live = s.plan.live)
    (hh : offeredHead t.table = offeredHead s.table) : present t = t := by
  rw [present_eq_iff] at h ⊢
  unfold NothingToPresent ringHasRoom at *
  rw [hr, hl, hh]; exact h

/-- A choice presents a write, or there is nothing to present. -/
theorem chooseWrite_or (s : State) : (chooseWrite s).report.presented.isSome = true ∨ chooseWrite s = s := by
  unfold chooseWrite chooseRecord
  repeat' split
  all_goals first | exact .inl rfl | exact .inr rfl

/-- After the Report Unit's choice there is nothing left to choose. -/
theorem present_present (s : State) : present (present s) = present s := by
  have h : (present s).report.presented.isSome = true ∨ present s = s := by
    unfold present
    split
    · exact .inr rfl
    · exact chooseWrite_or s
  rcases h with h | h
  · exact present_of_presented _ h
  · rw [h, h]

/-! ### Settling -/

/-- With no PATCHING entry for an IDLE context and no complete drain, nothing follows. -/
theorem settle_fixed {s : State} (hp : s.patch = .idle → firstPatching s.table = none)
    (hd : ¬(s.capture.device = .draining ∧ s.table.openFrames = [] ∧ anyPatching s.table = false)) : settle s = s := by
  have ht : takeUp s = s := by
    unfold takeUp
    cases s.table.queue.length with
    | zero => rfl
    | succ n =>
      unfold takeUpEach
      cases h : s.patch with
      | active w => rfl
      | idle => simp only [hp h]
  unfold settle
  rw [ht]; unfold drainTest; rw [if_neg hd]

/-- Settling depends on the patch context, the seal queue, the slots, whether a frame is open, and the device state. -/
theorem settle_same {s t : State} (hq : Quiet s) (hp : t.patch = s.patch) (hu : t.table.queue = s.table.queue)
    (hs : t.table.slots = s.table.slots) (ho : t.table.openFrames = [] → s.table.openFrames = [])
    (hd : t.capture.device = s.capture.device) : settle t = t := by
  apply settle_fixed
  · intro h
    have := hq.1 (hp ▸ h)
    unfold firstPatching at this ⊢
    rw [hu, hs]; exact this
  · rintro ⟨h1, h2, h3⟩
    refine hq.2.1 ⟨hd ▸ h1, ho h2, ?_⟩
    unfold anyPatching at h3 ⊢
    rw [← hs]; exact h3

/-- A quiet part presents nothing more as long as the Report Unit, the live plan and the offered head are the same. -/
theorem present_same {s t : State} (hq : Quiet s) (hr : t.report = s.report) (hl : t.plan.live = s.plan.live)
    (hu : t.table.queue = s.table.queue) (hs : t.table.slots = s.table.slots) : present t = t := by
  refine present_fixed hq.2.2 hr hl ?_
  unfold offeredHead; rw [hu, hs]

/-! ### What a free port does -/

theorem classify_page {s : State} {a : Nat} (h1 : s.planBase ≤ a) (h2 : a < s.planBase + 4096) :
    classify s a = .plan := by
  unfold classify; rw [if_pos ⟨h1, h2⟩]

/-- A landing write of a free port has its Lane Tracker's effect, whichever row names it. -/
theorem exec_landing {w : FabricWrite} {n : Lane} {s : State} (h : Lands w n s) :
    exec (.lineStart w) s = .next (landingEffect n w s) ∧ exec (.continuation w) s = .next (landingEffect n w s) := by
  have : offer (.write w) s = landingEffect n w s := by
    rw [offer_free _ _ h.2.1]
    show takeWrite w s = _
    unfold takeWrite; rw [h.2.2]
  constructor
  · show offerWrite w s = _
    unfold offerWrite; rw [if_pos h.1, this]
  · show offerWrite w s = _
    unfold offerWrite; rw [if_pos h.1, this]

/-- What the port holds after a landing write. -/
theorem hold_landing (w : FabricWrite) (n : Lane) (ds : List Derived) (s : State) :
    hold (.write w) (some n) ds s = { s with held := heldFor w (some n) ds } := by
  cases ds <;> rfl

/-- A landing write when nothing follows and nothing is presented after it. -/
theorem landing_quiet {w : FabricWrite} {n : Lane} {s : State} {r : State × List Derived}
    (hr : landingBurst n w.addr.toNat (windowOffset w n s) w.tag w.data s = r) (hset : settle r.1 = r.1) :
    landingEffect n w s = present { r.1 with held := heldFor w (some n) r.2 } := by
  unfold landingEffect
  show present (hold (.write w) (some n)
    (landingBurst n w.addr.toNat (windowOffset w n s) w.tag w.data s).2
    (settle (landingBurst n w.addr.toNat (windowOffset w n s) w.tag w.data s).1)) = _
  rw [hr, hset, hold_landing]

/-! ### The lock rule's latch, and a line that is no mark -/

/-- What the lock rule raises changes the latches alone. -/
theorem lockRaised_latches (s : State) (w : FabricWrite) (n : Lane) :
    ∃ ls, s.lockRaised w n = { s with report := { s.report with latches := ls } } := by
  unfold State.lockRaised
  split
  · exact ⟨s.report.latches, rfl⟩
  · exact ⟨_, rfl⟩

/-- The Lane Tracker raises the latch of a line start's lock rule. -/
theorem lockRaised_eq_raiseLock (s : State) (w : FabricWrite) (n : Lane) : s.lockRaised w n = raiseLock n (lockOf w n s) s := by
  unfold State.lockRaised raiseLock
  split <;> simp_all

/-- A line without a mark, or of a lane that is no MARK_SOURCE, is not evaluated as a mark (R59). -/
theorem evaluateMark_of_no_mark {n : Lane} {mark : Bool} (frame : Count) (row : Nat) {s : State}
    (h : mark = false ∨ s.livePlan.static.lanes[n].markSource = false) : evaluateMark n mark frame row s = s := by
  unfold evaluateMark
  rcases h with h | h <;> rw [h] <;> split <;> simp

end Sys2Proof.Machine
end

