-- ==== Sys2Proof/Laws/Landing.lean ====
section
/-! SUPPORT. The cases of a landing burst: an OFF lane, a rejected burst, a line start, a continuation. -/

namespace Sys2Proof.Machine

theorem requesterPasses_iff (w : FabricWrite) (n : Lane) (s : State) :
    requesterPasses s.livePlan.static n w.tag = true ↔ RequesterKnown w n s := by
  unfold requesterPasses RequesterKnown
  simp only [List.any_eq_true, Bool.and_eq_true, decide_eq_true_eq]
  constructor
  · rintro ⟨a, ha, ⟨h1, h2⟩, h3⟩
    obtain ⟨i, hi, rfl⟩ := List.mem_iff_getElem.mp ha
    have hi' : i < 8 := by simpa using hi
    exact ⟨⟨i, hi'⟩, by simpa using h1, by simpa using h2, by simpa using h3⟩
  · rintro ⟨i, h1, h2, h3⟩
    exact ⟨_, by simp, ⟨h1, h2⟩, h3⟩

theorem sinkWrite_sunk (w : FabricWrite) (n : Lane) (s : State) :
    sinkWrite s.livePlan.static w.addr.toNat (windowData w n s) = sunk w n s := by
  unfold sinkWrite sunk
  cases s.livePlan.static.sinkEnable with
  | false => simp
  | true =>
    cases windowData w n s with
    | nil => simp
    | cons a b => simp [StaticPlan.sinkPage, Config.pageBytes]

/-- The Lane Tracker's work on a landing burst, by the lane's state and the requester check (R20, R27). -/
theorem landingBurst_off {w : FabricWrite} {n : Lane} {s : State} (h : s.lanes[n].state = .off) :
    landingBurst n w.addr.toNat (windowOffset w n s) w.tag w.data s = (s, []) := by
  unfold landingBurst; rw [if_pos h]

theorem landingBurst_rejected {w : FabricWrite} {n : Lane} {s : State} (h : s.lanes[n].state ≠ .off)
    (hr : ¬RequesterKnown w n s) :
    landingBurst n w.addr.toNat (windowOffset w n s) w.tag w.data s
      = (raise (laneLatch n .tagReject) (.tagReject w.tag (windowOffset w n s)) s, sunk w n s) := by
  have hp : requesterPasses s.livePlan.static n w.tag = false := by
    rw [← Bool.not_eq_true]; exact fun e => hr ((requesterPasses_iff w n s).1 e)
  rw [← sinkWrite_sunk]
  unfold landingBurst
  rw [if_neg h]
  rw [hp]; rfl

theorem landingBurst_start {w : FabricWrite} {n : Lane} {s : State} (h : LineStarts w n s) :
    landingBurst n w.addr.toNat (windowOffset w n s) w.tag w.data s
      = startLine n w.addr.toNat (windowOffset w n s) w.tag (windowData w n s) s := by
  have hp := (requesterPasses_iff w n s).2 h.1.2.2
  unfold landingBurst
  rw [if_neg h.1.2.1]
  rw [hp, if_pos rfl, if_pos]
  · rfl
  · exact decide_eq_true h.2

theorem landingBurst_continuation {w : FabricWrite} {n : Lane} {s : State} (h : Passes w n s)
    (ho : windowOffset w n s % (s.entry n).winStride ≠ 0) :
    landingBurst n w.addr.toNat (windowOffset w n s) w.tag w.data s
      = continueBurst n w.addr.toNat (windowOffset w n s) w.tag (windowData w n s) s := by
  have hp := (requesterPasses_iff w n s).2 h.2.2
  unfold landingBurst
  rw [if_neg h.2.1]
  rw [hp, if_pos rfl, if_neg]
  · rfl
  · intro e; exact ho (of_decide_eq_true e)

theorem landingBurst_current {w : FabricWrite} {n : Lane} {s : State} (h : Continues w n s) :
    landingBurst n w.addr.toNat (windowOffset w n s) w.tag w.data s
      = continueLine n w.addr.toNat (windowOffset w n s) (windowData w n s) s := by
  rw [landingBurst_continuation h.1 h.2.1]
  unfold continueBurst
  cases hs : s.lanes[n].setAside with
  | none => rfl
  | some a => dsimp only; rw [if_neg]; exact h.2.2 a hs

/-! ### Line starts -/

theorem set_set (v : Vector LaneTracker 8) (n : Lane) (a b : LaneTracker) : (v.set n a).set n b = v.set n b := by
  ext i; simp [Vector.getElem_set]

/-- A cut changes nothing but the open frames' records, and not how many there are (R34). -/
theorem cutLine_frames (n : Lane) (s : State) :
    ∃ fs, cutLine n s = { s with table := { s.table with openFrames := fs } } ∧ fs.length = s.table.openFrames.length := by
  unfold cutLine
  split
  · exact ⟨_, rfl, by simp⟩
  · exact ⟨s.table.openFrames, rfl, rfl⟩

theorem cutLine_none {n : Lane} {s : State} (h : NoLineInFlight n s) : cutLine n s = s := by
  unfold cutLine
  split
  · rename_i hc; exact absurd hc (h _ _ _ _)
  · rfl

/-- The state in which a line start's tag is read: the line in flight is cut, and the lane is as `atLineStart` says (R22,
steps 1 to 3). -/
def beforeTag (n : Lane) (s : State) : State :=
  { cutLine n s with lanes := s.lanes.set n s.lanes[n].atLineStart }

/-- A line start that no injection alters comes to its tag in that state (R22). -/
theorem startLine_plain {n : Lane} {s : State} (hno : NoInjection n s) (addr off : Nat) (tag : Byte)
    (bytes : List Byte) :
    startLine n addr off tag bytes s =
      match tagFault s.livePlan.static.pixelBytes (s.entry n).winStride bytes with
      | some code => malformedBurst n addr off code (off / (s.entry n).winStride) bytes (beforeTag n s)
      | none =>
        burstInPlace n (bytes.drop Config.tagBytes) (lockAndPlace n (readTag bytes)
          { slot := off / (s.entry n).winStride, expected := off + Config.tagBytes,
            lineEnd := off + Config.tagBytes + (readTag bytes).pix * s.livePlan.static.pixelBytes }
          (beforeTag n s)) := by
  have e : startLine n addr off tag bytes s
      = beginLine n addr off none bytes (onLane n (fun l => { l with
          injection := s.lanes[n].injection.map fun i => { i with countdown := i.countdown - 1 } }) s) := by
    unfold startLine
    cases hi : s.lanes[n].injection with
    | none => simp only [countDown, Option.map_none]
    | some i =>
      have := hno i hi
      simp only [countDown, if_neg (show ¬i.countdown ≤ 1 by omega), Option.map_some]
  rw [e]
  generalize hj : (s.lanes[n].injection.map fun i => { i with countdown := i.countdown - 1 }) = j
  have hb : onLane n (fun l => { l with setAside := none, context := .none })
      (cutLine n (onLane n (fun l => { l with injection := j }) s)) = beforeTag n s := by
    have hc : (cutLine n (onLane n (fun l => { l with injection := j }) s))
        = { cutLine n s with lanes := s.lanes.set n { s.lanes[n] with injection := j } } := by
      unfold cutLine
      simp only [onLane, Fin.getElem_fin, Vector.getElem_set_self]
      split <;> rfl
    rw [hc]
    unfold beforeTag onLane
    simp only [Fin.getElem_fin, Vector.getElem_set_self, set_set, LaneTracker.atLineStart]
    rw [← hj]; rfl
  unfold beginLine
  dsimp only
  rw [hb]
  rfl

/-- A burst in place of a line that is not taken only advances it (R23). -/
theorem burstInPlace_discarding {n : Lane} {s : State} {x : LineExtent} (bytes : List Byte)
    (h : s.lanes[n].context = .discarding x) :
    burstInPlace n bytes s = (setContext n (contextAfterBurst bytes.length (.discarding x)) s, []) := by
  unfold burstInPlace; rw [h]; rfl

/-- The state in which a lock rule's line is handed on or dropped: the lane as the rule leaves it, its latch raised. -/
def afterLock (w : FabricWrite) (n : Lane) (s : State) : State :=
  raiseLock n (lockOf w n s) { s with lanes := s.lanes.set n (lockOf w n s).lane }

/-- The line as the lock rule hands it on (R32). -/
def lineGiven (w : FabricWrite) (n : Lane) (s : State) : Line :=
  let t := readTag (windowData w n s)
  { seq := t.seq, enc := t.enc, pos := tagPosition w n s, pix := t.pix, mark := t.mark, time := t.time,
    gSeq := (lockOf w n s).gSeq, gPos := (lockOf w n s).gPos }

/-- A well-formed line start with no line in flight before it: an accepted line is handed on, a dropped line is discarded
(R22 steps 5 and 6). -/
theorem lockAndPlace_plain {w : FabricWrite} {n : Lane} {s : State} (hf : NoLineInFlight n s) :
    lockAndPlace n (readTag (windowData w n s)) (lineOf w n s) (beforeTag n s) =
      if (lockOf w n s).accepted then handOn n (lineGiven w n s) (lineOf w n s) (afterLock w n s)
      else if s.lanes[n].state = .locked ∧ (lockOf w n s).lane.state ≠ .locked then
        evalSealTest (setContext n (.discarding (lineOf w n s)) (afterLock w n s))
      else setContext n (.discarding (lineOf w n s)) (afterLock w n s) := by
  have hb : beforeTag n s = { s with lanes := s.lanes.set n s.lanes[n].atLineStart } := by
    unfold beforeTag; rw [cutLine_none hf]
  have hl : onLane n (fun _ => (lockOf w n s).lane) (beforeTag n s)
      = { s with lanes := s.lanes.set n (lockOf w n s).lane } := by
    rw [hb]; unfold onLane; simp only [set_set]
  have hlane : (beforeTag n s).lanes[n] = s.lanes[n].atLineStart := by rw [hb]; simp
  have hp : (beforeTag n s).livePlan = s.livePlan := by rw [hb]; rfl
  unfold lockAndPlace
  dsimp only
  rw [hlane, hp]
  rw [show lockRule s.livePlan.static.lanes[n] (readTag (windowData w n s)).seq
    ((readTag (windowData w n s)).enc - s.livePlan.static.lanes[n].delay) s.lanes[n].atLineStart = lockOf w n s from rfl, hl]
  rfl

/-- A well-formed line start with no line in flight before it. -/
theorem landingBurst_wellFormed {w : FabricWrite} {n : Lane} {s : State} (h : LineStarts w n s) (hno : NoInjection n s)
    (ht : TagWellFormed w n s) :
    landingBurst n w.addr.toNat (windowOffset w n s) w.tag w.data s
      = burstInPlace n ((windowData w n s).drop 16)
          (lockAndPlace n (readTag (windowData w n s)) (lineOf w n s) (beforeTag n s)) := by
  have ht' : tagFault s.livePlan.static.pixelBytes (s.entry n).winStride (windowData w n s) = none := ht
  rw [landingBurst_start h, startLine_plain hno, ht']
  rfl

end Sys2Proof.Machine
end

