-- ==== Sys2Proof/Laws/Frames.lean ====
section
/-! SUPPORT. The list of open frames under the operations that touch it: how long it stays, and what each operation changes
beside it. -/

namespace Sys2Proof.Machine

theorem onNewest_length (f : Frame → Frame) (l : List Frame) : (onNewest f l).length = l.length := by
  induction l with
  | nil => rfl
  | cons a l ih =>
    cases l with
    | nil => rfl
    | cons b l => simp only [onNewest, List.length_cons] at ih ⊢; omega

/-- The newest frame of a list that is not empty, changed. -/
theorem onNewest_append (f : Frame → Frame) (l : List Frame) (a : Frame) : onNewest f (l ++ [a]) = l ++ [f a] := by
  induction l with
  | nil => rfl
  | cons b l ih =>
    cases l with
    | nil => rfl
    | cons c l => simp only [List.cons_append, onNewest] at ih ⊢; rw [ih]

theorem updateAt_length (g h : Frame → Frame) (i : Nat) (l : List Frame) : (updateAt g h i l).length = l.length := by
  induction l generalizing i with
  | nil => cases i <;> rfl
  | cons a l ih =>
    cases i with
    | zero => rfl
    | succ i => simp only [updateAt, List.length_cons, ih]

/-- What a recomputation changes (R54): with the newest frame's row count provisional, that count and the next boundary. -/
theorem recompute_cases (s : State) :
    recompute s = s ∨ ∃ older f, s.table.openFrames = older ++ [f] ∧ f.fixed = false
      ∧ recompute s = { s with
          table := { s.table with
            openFrames := older ++ [{ f with rows := provisionalRows s.livePlan s.reg.correction f }] }
          reg := { s.reg with next := some (nextBoundary s.livePlan s.reg.correction f) } } := by
  unfold recompute
  cases h : s.table.openFrames.getLast? with
  | none => exact .inl rfl
  | some f =>
    obtain ⟨older, ho⟩ := List.getLast?_eq_some_iff.mp h
    dsimp only
    split
    · exact .inl rfl
    · rename_i hf
      refine .inr ⟨older, f, ho, by simpa using hf, ?_⟩
      rw [ho, onNewest_append]

/-- What fixing the newest frame changes (R55 to R57): the row count's standing, the next boundary's, and the pending
correction. -/
theorem fixNewest_cases (s : State) :
    fixNewest s = s ∨ ∃ older f, s.table.openFrames = older ++ [f] ∧ f.fixed = false
      ∧ fixNewest s = { s with
          table := { s.table with openFrames := older ++ [{ f with fixed := true }] }
          reg := { s.reg with next := s.reg.next.map fun b => { b with fixed := true }, correction := 0 } } := by
  unfold fixNewest
  cases h : s.table.openFrames.getLast? with
  | none => exact .inl rfl
  | some f =>
    obtain ⟨older, ho⟩ := List.getLast?_eq_some_iff.mp h
    dsimp only
    split
    · exact .inl rfl
    · rename_i hf
      refine .inr ⟨older, f, ho, by simpa using hf, ?_⟩
      rw [ho, onNewest_append]

theorem recompute_length (s : State) : (recompute s).table.openFrames.length = s.table.openFrames.length := by
  rcases recompute_cases s with h | ⟨older, f, ho, _, h⟩
  · rw [h]
  · rw [h, ho]; simp

theorem fixNewest_length (s : State) : (fixNewest s).table.openFrames.length = s.table.openFrames.length := by
  rcases fixNewest_cases s with h | ⟨older, f, ho, _, h⟩
  · rw [h]
  · rw [h, ho]; simp

/-- Loading the seal timer changes the seal timer alone (R112). -/
theorem loadSealTimer_cases (s : State) :
    ∃ t, loadSealTimer s = { s with table := { s.table with sealTimer := t } } := by
  unfold loadSealTimer
  split
  · exact ⟨s.table.sealTimer, rfl⟩
  · split
    · exact ⟨_, rfl⟩
    · exact ⟨s.table.sealTimer, rfl⟩

theorem timerOnEndSeen_cases (b : Bool) (s : State) :
    ∃ t, timerOnEndSeen b s = { s with table := { s.table with sealTimer := t } } := by
  unfold timerOnEndSeen
  split
  · exact ⟨s.table.sealTimer, rfl⟩
  · split
    · exact loadSealTimer_cases s
    · exact ⟨s.table.sealTimer, rfl⟩

/-- The placing of a line opens no frame and seals none. -/
theorem placeLine_length (n : Lane) (i q : Nat) (time : Count) (s : State) :
    (placeLine n i q time s).table.openFrames.length = s.table.openFrames.length := by
  have keeps (b : Bool) (u : State) :
      (timerOnEndSeen b u).table.openFrames.length = u.table.openFrames.length := by
    obtain ⟨t, h⟩ := timerOnEndSeen_cases b u
    rw [h]
  unfold placeLine
  dsimp only
  rw [keeps]
  split
  · rw [recompute_length]; exact updateAt_length _ _ _ _
  · exact updateAt_length _ _ _ _

theorem openFrame_ne_nil (b : Boundary) (s : State) : (openFrame b s).table.openFrames ≠ [] := by
  intro h
  have : (openFrame b s).table.openFrames.length = 0 := by rw [h]; rfl
  unfold openFrame at this
  dsimp only at this
  rw [recompute_length] at this
  simp at this

/-! ### What a line and the seal timer make of a frame -/

/-- Moving a lane on past a frame does what R81 says. -/
theorem passedBy_passBy (p : StaticPlan) (n : Lane) (f : Frame) : PassedBy p n f (f.passBy p n) := by
  refine ⟨fun h => by simp only [Frame.passBy, h], fun c h => ?_⟩
  by_cases hc : c < f.rows * p.phases
  · by_cases hr : f.runs.length < 16 <;>
      simp [Frame.passBy, Frame.recordUpTo, Frame.recordRun, Frame.extent, Config.maxRuns, setLaneBit, h, hc, hr]
  · simp [Frame.passBy, Frame.recordUpTo, Frame.extent, setLaneBit, h, hc, Nat.sub_eq_zero_of_le (Nat.le_of_not_lt hc)]

/-- Loading the seal timer changes the timer alone, for the oldest open frame (R112). -/
theorem loadSealTimer_eq {s : State} {o : Frame} {rest : List Frame} (h : s.table.openFrames = o :: rest) :
    loadSealTimer s
      = { s with table := { s.table with sealTimer := timerOnceSeen false s.livePlan.run o s.table.sealTimer } } := by
  have same : ∀ t, s.table.sealTimer = t → s = { s with table := { s.table with sealTimer := t } } := by
    rintro t rfl; rfl
  unfold loadSealTimer
  split
  · rename_i h'; rw [h] at h'; cases h'
  · rename_i o' rest' h'
    obtain ⟨rfl, rfl⟩ := List.cons.inj (h.symm.trans h')
    cases ht : s.table.sealTimer with
    | running j r => simpa [timerOnceSeen] using same _ ht
    | idle =>
      by_cases hl : o.endSeen = true ∧ s.livePlan.run.sealTimeout ≠ 0
      · simp [timerOnceSeen, hl]
      · simpa [timerOnceSeen, hl] using same _ ht

/-- What the withdrawal of a frame's waiting writes leaves at the port (R13), when what the port holds has derived
requests. -/
theorem withdraw_held {number : Count} {s : State} (hd : ∀ h, s.held = some h → h.derived ≠ []) :
    (withdraw number s).held = s.heldWithout number := by
  unfold withdraw State.heldWithout
  cases hh : s.held with
  | none => simp only [hh]
  | some h =>
    have keep : h.keep (h.derived.filter fun d => !d.steersInto number)
        = if (h.derived.filter fun d => decide (d.kind ≠ .steer number)) = [] then none
          else some { h with derived := h.derived.filter fun d => decide (d.kind ≠ .steer number) } := by
      have e : (fun d : Derived => !d.steersInto number) = fun d => decide (d.kind ≠ .steer number) := by
        funext d; simp [Derived.steersInto]
      rw [e]
      cases h.derived.filter fun d => decide (d.kind ≠ .steer number) <;> simp [HeldRequest.keep]
    by_cases ha : h.derived.any (Derived.steersInto number) = true
    · simp only [ha, if_true, keep]
    · have same : (h.derived.filter fun d => decide (d.kind ≠ .steer number)) = h.derived := by
        rw [List.filter_eq_self]
        intro d hm
        have := List.all_eq_true.mp (by simpa using ha : h.derived.all fun d => !d.steersInto number) d hm
        simpa [Derived.steersInto] using this
      simpa only [ha, same, if_neg (hd h hh), Bool.false_eq_true, if_false] using hh

end Sys2Proof.Machine
end

