-- ==== Sys2Proof/Laws/Mailbox.lean ====
section
/-! SUPPORT. What a command written into the mailbox of a free port does: its bytes reach the shadow, the forwarded write
waits, and the command is taken with the arguments, the code and the tag that were written (R154, R157, R158). -/

namespace Sys2Proof.Machine

theorem mailbox_length (s : State) (code : Byte) (m : Mailbox) : (mailboxWrite s code m).data.length = 14 := by
  simp [mailboxWrite, leBytes_length]

theorem planBase_lt (s : State) : s.planBase + 4096 ≤ 281474976710656 := by
  have : s.planSel.toNat < 256 := s.planSel.isLt
  unfold State.planBase Config.planUnit; omega

theorem mailbox_addr (s : State) (code : Byte) (m : Mailbox) :
    (mailboxWrite s code m).addr.toNat = s.planBase + 0xF40 := by
  have := planBase_lt s
  simp only [mailboxWrite, offArg0, BitVec.toNat_ofNat]
  omega

theorem ofNat_leNat_leBytes (v : Count) : BitVec.ofNat 32 (leNat (leBytes 4 v.toNat)) = v := by
  rw [leNat_leBytes]
  apply BitVec.eq_of_toNat_eq
  have := v.isLt
  simp only [BitVec.toNat_ofNat]
  omega

/-- The mailbox read back from a shadow that the whole mailbox has been written into. -/
theorem readMailbox_written {s : State} (code : Byte) (m : Mailbox) (h : s.plan.shadow.wf = true) :
    readMailbox (s.plan.shadow.writeBytes 0xF40 (mailboxWrite s code m).data)
      = { code := code, tag := m.tag, arg0 := m.arg0, arg1 := m.arg1, arg2 := m.arg2 } := by
  have hl := mailbox_length s code m
  have hr := Memory.read_writeBytes_inside h 0xF40 (mailboxWrite s code m).data
  generalize hM : s.plan.shadow.writeBytes 0xF40 (mailboxWrite s code m).data = M at hr ⊢
  have arg : ∀ (k : Nat) (v : Count), k ≤ 8 →
      (∀ i (hi : i < (leBytes 4 v.toNat).length), (mailboxWrite s code m).data[k + i]? = some (leBytes 4 v.toNat)[i]) →
      BitVec.ofNat 32 (M.field 4 (0xF40 + k)) = v := by
    intro k v hk hv
    have hb := Memory.field_of_bytes (m := M) (0xF40 + k) (leBytes 4 v.toNat) (by
      intro i hi
      have hi4 : i < 4 := by rw [leBytes_length] at hi; exact hi
      have hlt : k + i < (mailboxWrite s code m).data.length := by omega
      have e := hv i hi
      rw [List.getElem?_eq_getElem hlt] at e
      have := hr (k + i) hlt
      rw [Nat.add_assoc, this]
      exact Option.some.inj e)
    rw [leBytes_length] at hb
    rw [hb, ofNat_leNat_leBytes]
  have hc : M.read 0xF4C = code := by
    have := hr 12 (by omega); rw [this]; simp [mailboxWrite, leBytes]
  have ht : M.read 0xF4D = m.tag := by
    have := hr 13 (by omega); rw [this]; simp [mailboxWrite, leBytes]
  unfold readMailbox
  rw [show offCode = 0xF4C from rfl, show offTag = 0xF4D from rfl, hc, ht]
  have h0 := arg 0 m.arg0 (by omega) (by
    intro i hi; rw [leBytes_length] at hi
    rcases i with _ | _ | _ | _ | i <;> first | rfl | omega)
  have h1 := arg 4 m.arg1 (by omega) (by
    intro i hi; rw [leBytes_length] at hi
    rcases i with _ | _ | _ | _ | i <;> first | rfl | omega)
  have h2 := arg 8 m.arg2 (by omega) (by
    intro i hi; rw [leBytes_length] at hi
    rcases i with _ | _ | _ | _ | i <;> first | rfl | omega)
  rw [show offArg0 = 0xF40 + 0 from rfl, h0, show offArg1 = 0xF40 + 4 from rfl, h1, show offArg2 = 0xF40 + 8 from rfl, h2]

/-- A PLAN write taken by the port: held for its forwarding, copied, then the consumer word and the command. -/
theorem takeWrite_plan {w : FabricWrite} {s : State} {off : Nat} (ha : w.addr.toNat = s.planBase + off)
    (ho : off < 4096) :
    takeWrite w s = present (planCommand off w.data.length (planConsumer off w.data.length
      { s with
        held := some { request := .write w, lane := none, derived := [forwardWrite w] }
        plan := { s.plan with shadow := s.plan.shadow.writeBytes off w.data } })) := by
  have e : w.addr.toNat - s.planBase = off := by omega
  unfold takeWrite
  rw [classify_page (by omega) (by omega)]
  show present (planCommand (w.addr.toNat - s.planBase) w.data.length (planConsumer (w.addr.toNat - s.planBase)
    w.data.length (copyToShadow (w.addr.toNat - s.planBase) w.data (hold (.write w) none [forwardWrite w] s)))) = _
  rw [e]; rfl

/-- A command written into the mailbox of a free port is taken with what was written. -/
theorem offerMailbox_taken {code : Byte} {m : Mailbox} {s : State} (h : Commanded m s) :
    offerMailbox code m s
      = present (takeCommand { code := code, tag := m.tag, arg0 := m.arg0, arg1 := m.arg1, arg2 := m.arg2 }
          (s.withMailbox code m)) := by
  obtain ⟨hf, hwf, ht⟩ := h
  have hr := readMailbox_written code m hwf
  unfold State.withMailbox offerMailbox
  rw [offer_free _ _ hf]
  show takeWrite _ s = _
  rw [takeWrite_plan (mailbox_addr s code m) (by decide), mailbox_length]
  generalize mailboxWrite s code m = w at hr ⊢
  have htag : (s.plan.shadow.writeBytes 0xF40 w.data).read offTag = m.tag := congrArg TakenCommand.tag hr
  congr 1
  unfold planConsumer
  rw [if_neg (by decide)]
  unfold planCommand
  have hc : (covers 0xF40 14 offTag && decide ((s.plan.shadow.writeBytes 0xF40 w.data).read offTag ≠ 0)) = true := by
    rw [htag, decide_eq_true ht]; rfl
  rw [if_pos hc]
  dsimp only
  rw [hr]

/-! ### The tests of R158 -/

theorem takeCommand_taken {x : TakenCommand} {c : MailCommand} {s : State} (hc : decodeCommand x.code = some c)
    (hb : busy c s = false) (ha : stateAllows c s.capture.device s.capture.drainCause = true) :
    takeCommand x s = answerWith x.tag (perform c x s) := by
  unfold takeCommand; rw [hc]; dsimp only; rw [hb, ha]; rfl

theorem takeCommand_busy {x : TakenCommand} {c : MailCommand} {s : State} (hc : decodeCommand x.code = some c)
    (hb : busy c s = true) : takeCommand x s = answer x.tag rBusy s := by
  unfold takeCommand; rw [hc]; dsimp only; rw [hb]; rfl

theorem takeCommand_badState {x : TakenCommand} {c : MailCommand} {s : State} (hc : decodeCommand x.code = some c)
    (hb : busy c s = false) (ha : stateAllows c s.capture.device s.capture.drainCause = false) :
    takeCommand x s = answer x.tag rBadState s := by
  unfold takeCommand; rw [hc]; dsimp only; rw [hb, ha]; rfl

theorem takeCommand_unknown {x : TakenCommand} {s : State} (hc : decodeCommand x.code = none) :
    takeCommand x s = answer x.tag rUnknown s := by
  unfold takeCommand; rw [hc]

/-- An answer handed over is answered: it waits, or is presented at once (R142, R159). -/
theorem answered_present (tag : Byte) (r : ResultWord) (s : State) :
    Answered tag r s.capture.device (present (answer tag r s)) := by
  unfold Answered
  dsimp only
  unfold present
  split
  · exact .inl rfl
  · unfold chooseWrite
    split
    · exact .inl rfl
    · exact .inr ⟨rfl, rfl⟩

end Sys2Proof.Machine
end

