-- ==== Sys2Proof/Laws/PerInstr.lean ====
section
/-! SUPPORT. Of every command of the table: the code byte that it writes into the mailbox names it, and no other row's
(R157, R187). -/

namespace Sys2Proof.Laws.RowCode

/-- The code byte that a row writes into the mailbox; the other rows write none. -/
def codeOf : Instr → Option Byte
  | .powerOnReset _ => none
  | .read _ _ _ => none
  | .readResponse _ _ => none
  | .passWrite _ => none
  | .planWrite _ => none
  | .consumerWord _ _ => none
  | .commit _ => some MailCommand.commit.code
  | .start _ => some MailCommand.start.code
  | .stop _ => some MailCommand.stop.code
  | .abort _ => some MailCommand.abort.code
  | .flush _ => some MailCommand.flush.code
  | .release _ => some MailCommand.release.code
  | .snapshot _ => some MailCommand.snapshot.code
  | .clearErrors _ => some MailCommand.clearErrors.code
  | .inject _ => some MailCommand.inject.code
  | .unknown c _ => some c
  | .lineStart _ => none
  | .continuation _ => none
  | .derivedRequestTaken => none
  | .recordTaken => none
  | .reportWordTaken => none
  | .snapshotWriteTaken => none
  | .fillWriteTaken => none
  | .sealTimerExpiry => none
  | .attentionTimerExpiry => none

/-- The command of the mailbox that a row is; UNKNOWN, and every row that is no mailbox write, is none. -/
def commandOf : Instr → Option MailCommand
  | .powerOnReset _ => none
  | .read _ _ _ => none
  | .readResponse _ _ => none
  | .passWrite _ => none
  | .planWrite _ => none
  | .consumerWord _ _ => none
  | .commit _ => some .commit
  | .start _ => some .start
  | .stop _ => some .stop
  | .abort _ => some .abort
  | .flush _ => some .flush
  | .release _ => some .release
  | .snapshot _ => some .snapshot
  | .clearErrors _ => some .clearErrors
  | .inject _ => some .inject
  | .unknown _ _ => none
  | .lineStart _ => none
  | .continuation _ => none
  | .derivedRequestTaken => none
  | .recordTaken => none
  | .reportWordTaken => none
  | .snapshotWriteTaken => none
  | .fillWriteTaken => none
  | .sealTimerExpiry => none
  | .attentionTimerExpiry => none

/-- The code byte of a well-formed command decodes to the command of its row. -/
def Statement (i : Instr) : Prop := i.wellFormed = true → (codeOf i).bind decodeCommand = commandOf i

theorem powerOnReset (s : Byte) : Statement (.powerOnReset s) := fun _ => rfl
theorem read (a : Addr) (l : Nat) (t : Byte) : Statement (.read a l t) := fun _ => rfl
theorem readResponse (t : Byte) (d : List Byte) : Statement (.readResponse t d) := fun _ => rfl
theorem passWrite (w : FabricWrite) : Statement (.passWrite w) := fun _ => rfl
theorem planWrite (w : FabricWrite) : Statement (.planWrite w) := fun _ => rfl
theorem consumerWord (t : Byte) (v : Count) : Statement (.consumerWord t v) := fun _ => rfl
theorem commit (m : Mailbox) : Statement (.commit m) := fun _ => rfl
theorem start (m : Mailbox) : Statement (.start m) := fun _ => rfl
theorem stop (m : Mailbox) : Statement (.stop m) := fun _ => rfl
theorem abort (m : Mailbox) : Statement (.abort m) := fun _ => rfl
theorem flush (m : Mailbox) : Statement (.flush m) := fun _ => rfl
theorem release (m : Mailbox) : Statement (.release m) := fun _ => rfl
theorem snapshot (m : Mailbox) : Statement (.snapshot m) := fun _ => rfl
theorem clearErrors (m : Mailbox) : Statement (.clearErrors m) := fun _ => rfl
theorem inject (m : Mailbox) : Statement (.inject m) := fun _ => rfl
theorem unknown (c : Byte) (m : Mailbox) : Statement (.unknown c m) := by
  intro h
  have hc : c.toNat < 1 ∨ 9 < c.toNat := by
    simp only [Instr.wellFormed, Bool.and_eq_true, codeIsUnknown, decide_eq_true_eq] at h
    exact h.1
  change decodeCommand c = none
  unfold decodeCommand
  split <;> first | omega | rfl
theorem lineStart (w : FabricWrite) : Statement (.lineStart w) := fun _ => rfl
theorem continuation (w : FabricWrite) : Statement (.continuation w) := fun _ => rfl
theorem derivedRequestTaken : Statement .derivedRequestTaken := fun _ => rfl
theorem recordTaken : Statement .recordTaken := fun _ => rfl
theorem reportWordTaken : Statement .reportWordTaken := fun _ => rfl
theorem snapshotWriteTaken : Statement .snapshotWriteTaken := fun _ => rfl
theorem fillWriteTaken : Statement .fillWriteTaken := fun _ => rfl
theorem sealTimerExpiry : Statement .sealTimerExpiry := fun _ => rfl
theorem attentionTimerExpiry : Statement .attentionTimerExpiry := fun _ => rfl

end Sys2Proof.Laws.RowCode
end

