-- ==== Sys2Proof/Laws/Queue.lean ====
section
/-! SUPPORT. The seal queue under the join of a slotless frame: which tail entry takes it in, and what the tail is after. -/

namespace Sys2Proof.Machine

/-- A skip entry takes in a frame when its count is held, or when its frames end just before it (R120, log 28). -/
theorem SkipEntry.precedes_iff (number : Count) (e : SkipEntry) :
    e.precedes number = true ↔ e.count = Config.max32 ∨ e.first + BitVec.ofNat 32 e.count = number := by
  simp [SkipEntry.precedes]

/-- A skip entry that takes in a frame takes in the frame after it too. -/
theorem SkipEntry.takeIn_precedes {f : Frame} {e : SkipEntry} (h : e.precedes f.number = true) :
    (e.takeIn f).precedes (f.number + 1) = true := by
  rw [precedes_iff] at h ⊢
  by_cases hc : e.count < Config.max32
  · refine .inr ?_
    have hn : e.first + BitVec.ofNat 32 e.count = f.number := h.resolve_left (by omega)
    show e.first + BitVec.ofNat 32 (min Config.max32 (e.count + 1)) = f.number + 1
    rw [Nat.min_eq_right (by omega), ← hn, BitVec.ofNat_add, BitVec.add_assoc]
    rfl
  · exact .inl (Nat.min_eq_left (by omega))

/-- The skip entry of one frame takes in the frame after it. -/
theorem skipEntryOf_precedes (f : Frame) : (skipEntryOf f).precedes (f.number + 1) = true :=
  (SkipEntry.precedes_iff _ _).mpr (.inr rfl)

/-- After a slotless frame has joined, the tail of the seal queue is a skip entry that takes in the frame after it. -/
theorem appendSkip_tail (f : Frame) (presented : Bool) (q : List QueueEntry) :
    ∃ x, (appendSkip presented f q).getLast? = some (.skip x) ∧ x.precedes (f.number + 1) = true := by
  fun_induction appendSkip presented f q with
  | case1 => exact ⟨_, rfl, skipEntryOf_precedes f⟩
  | case2 p e h => exact ⟨_, rfl, SkipEntry.takeIn_precedes (by simp_all)⟩
  | case3 => exact ⟨_, rfl, skipEntryOf_precedes f⟩
  | case4 => exact ⟨_, rfl, skipEntryOf_precedes f⟩
  | case5 p e e' rest ih =>
    obtain ⟨x, hx, hp⟩ := ih
    refine ⟨x, ?_, hp⟩
    rw [List.getLast?_cons, hx]; rfl

end Sys2Proof.Machine
end

