-- ==== Sys2Proof/Tests/Slice0.lean ====
section
/-! SUPPORT. Tests: the well-formedness checks, one step of each command against values that the spec states, and for each
statement of Obligations.lean that has hypotheses a state and operands that meet them together (`witness_…`). The plan is
the one of spec/12 section 12.1, with the lanes and planes of spec/05 section 5.10. -/

set_option Elab.async false

namespace Sys2Proof.Tests

open Sys2Proof.Machine

/-! ### A small plan and small states -/

def vacantLane : LaneEntry :=
  { winBase := 0, winStride := 0, winLines := 0, lockCode := 0, gapLimit := 0, delay := 0, cropFirst := 0, keep := 0,
    xOffset := 0, markSource := false }

def noPlane : PlaneEntry := { base := 0, stride := 0, pitch := 0, keepMask := 0, fill := 0 }

def noEntry : AliasEntry := { reqTag := 0, lane := 0 }

/-- Lanes 0 and 1 of section 5.10, with the lock and gap fields of section 12.1. -/
def lane0 : LaneEntry :=
  { winBase := 0x40000000, winStride := 8192, winLines := 64, lockCode := 0, gapLimit := 8, delay := 0, cropFirst := 64,
    keep := 4096, xOffset := 0, markSource := true }
def lane1 : LaneEntry :=
  { winBase := 0x40100000, winStride := 8192, winLines := 64, lockCode := 0, gapLimit := 8, delay := 0, cropFirst := 0,
    keep := 4096, xOffset := 4096, markSource := false }

/-- The plan of section 12.1. -/
def plan : Plan :=
  { static :=
      { phases := 2, phaseRot := 0, pixelBytes := 1, slots := 4, frameRows := 1008, roundBias := 32768,
        repeatLen := 65552384, markOffset := 7864320, sinkEnable := true, ringEntries := 16, sinkBase := 0x02002000,
        ringBase := 0x03000000, phaseMap := #v[0, 1, 255, 255],
        aliases := #v[{ reqTag := 0x20, lane := 0 }, { reqTag := 0x21, lane := 1 }, noEntry, noEntry, noEntry, noEntry,
                      noEntry, noEntry],
        planes := #v[{ base := 0x100000000, stride := 0x1000000, pitch := 16384, keepMask := 0xFF, fill := 0 },
                     { base := 0x140000000, stride := 0x400000, pitch := 16384, keepMask := 0x11, fill := 0x80 },
                     noPlane, noPlane],
        lanes := #v[lane0, lane1, vacantLane, vacantLane, vacantLane, vacantLane, vacantLane, vacantLane] }
    run :=
      { laneEnable := 3, markWindow := 4, markGain := 1, markMaxStep := 131072, markLostLimit := 0, sealTimeout := 5000,
        patchEnable := true, attnThreshold := 4, attnDelay := 2000 } }

/-- A device state under a plan. -/
def under (p : Plan) (d : DeviceState) : State :=
  { State.resetWith 2 with
    plan := { PlanUnit.atReset with live := some p, generation := 7 }
    capture := { device := d, mode := .continuous, drainCause := .none } }

def stopped : State := under plan .stopped

/-- The plan with PATCH_ENABLE clear. -/
def unpatched : Plan := { plan with run := { plan.run with patchEnable := false } }

/-- A lane that is LOCKED with last tag SEQ 100, P 1020, and no current line. -/
def locked : LaneTracker :=
  { state := .locked, progress := 0, tagKnown := true, lastSeq := 100, lastP := 1020, context := .none, setAside := none,
    injection := none }

def lanesOf (a b : LaneTracker) : Vector LaneTracker 8 :=
  #v[a, b, LaneTracker.atReset, LaneTracker.atReset, LaneTracker.atReset, LaneTracker.atReset, LaneTracker.atReset,
     LaneTracker.atReset]

/-- Frame 3 in slot 2, from position 1000 on, with 1000 rows and every lane at relative position 21. -/
def frame3 : Frame :=
  { number := 3, slot := some 2, start := 1000, residue := 100, rows := 1000, fixed := false, correction := 0,
    clamped := false, hi := some 10, cursors := Vector.replicate 8 (.expects 21), passed := 0, delivered := 3,
    markTaken := false, endSeen := false, firstTime := some 5, missing := 0, damaged := 0, runs := [], overflow := false }

/-- RUNNING with these open frames, the next boundary at frame 4, and both lanes in a state. -/
def running (p : Plan) (fs : List Frame) (a b : LaneTracker) : State :=
  let s := under p .running
  { s with
    lanes := lanesOf a b
    reg := { s.reg with
      origin := some 6
      next := some { frame := 4, start := 3000, residue := 16384, correction := 0, clamped := false, fixed := false } }
    table := { s.table with
      openFrames := fs
      slots := s.table.slots.set 2 .filling
      lastAllocated := some 2 } }

def run1 : State := running plan [frame3] locked locked

/-- The bytes of a line tag (R183). -/
def tagBytes (seq enc pix : Nat) (mark : Bool) : List Byte :=
  [0xA6, if mark then 1 else 0] ++ leBytes 2 seq ++ leBytes 4 enc ++ leBytes 2 pix ++ [0, 0, 9, 0, 0, 0]

/-- A write of lane 0 or lane 1 at a window offset. -/
def write0 (off : Nat) (data : List Byte) : FabricWrite :=
  { addr := BitVec.ofNat 48 (0x40000000 + off), tag := 0x20, data := data }
def write1 (off : Nat) (data : List Byte) : FabricWrite :=
  { addr := BitVec.ofNat 48 (0x40100000 + off), tag := 0x21, data := data }

/-- A line start of lane 0 in slot 1 with 4 pixel bytes. -/
def start0 (seq enc pix : Nat) : FabricWrite := write0 8192 (tagBytes seq enc pix false ++ [1, 2, 3, 4])

/-- The state that a step answers; State.reset stands for a stop. -/
def after (c : Instr) (s : State) : State :=
  match exec c s with
  | .next t => t
  | .fault _ => State.reset
  | .refused _ => State.reset

/-- The step answers a next state. -/
def goesOn (c : Instr) (s : State) : Bool :=
  match exec c s with
  | .next _ => true
  | .fault _ => false
  | .refused _ => false

/-- A mailbox with three arguments and a tag. -/
def mail (a0 a1 a2 : Nat) (tag : Byte) : Mailbox :=
  { reqTag := 1, arg0 := BitVec.ofNat 32 a0, arg1 := BitVec.ofNat 32 a1, arg2 := BitVec.ofNat 32 a2, tag := tag }

theorem noInjection_of_none {n : Lane} {s : State} (h : s.lanes[n].injection = none) : NoInjection n s := by
  intro i hi; rw [h] at hi; cases hi

theorem noLineInFlight_of_none {n : Lane} {s : State} (h : s.lanes[n].context = .none) : NoLineInFlight n s := by
  intro x f q pl hx; rw [h] at hx; cases hx

/-! ### Well-formedness: an ill-formed command for each check, refused by the check and by exec -/

theorem test_wellFormed_read_empty : (Instr.read 0 0 1).wellFormed = false := by decide
theorem test_wellFormed_read_long : (Instr.read 0 257 1).wellFormed = false := by decide
theorem test_wellFormed_response_empty : (Instr.readResponse 1 []).wellFormed = false := by decide
theorem test_wellFormed_write_empty : (Instr.passWrite (write0 0 [])).wellFormed = false := by decide
theorem test_wellFormed_write_long : (Instr.planWrite (write0 0 (List.replicate 257 0))).wellFormed = false := by
  decide +kernel
theorem test_wellFormed_write_crosses_page : (Instr.lineStart (write0 4095 [1, 2])).wellFormed = false := by decide
theorem test_wellFormed_write_ends_page : (Instr.continuation (write0 4094 [1, 2])).wellFormed = true := by decide
theorem test_wellFormed_mail_without_tag : (Instr.commit (mail 0 0 0 0)).wellFormed = false := by decide
theorem test_wellFormed_unknown_names_command : (Instr.unknown 9 (mail 0 0 0 1)).wellFormed = false := by decide
theorem test_stops_on_bad_request :
    goesOn (.read 0 0 1) stopped = false ∧ goesOn (.continuation (write0 4095 [1, 2])) stopped = false := by
  decide +kernel

/-! ### Reset, reads, responses, PASS and PLAN writes -/

/-- Section 12.1: with PLAN_SEL 2, PLAN_BASE is 0x0200_0000 and the status area begins at 0x0200_1000; R170: DORMANT. -/
theorem test_powerOnReset :
    let t := after (.powerOnReset 2) run1
    t.planBase = 0x02000000 ∧ t.statusBase = 0x02001000 ∧ t.capture.device = .dormant ∧ t.plan.live = none := by
  decide +kernel

/-- R3: the read waits at the memory port with its address, length and tag. -/
theorem test_read :
    (after (.read 0x1FFF 256 7) stopped).held.map (fun h => h.derived.map (·.req)) = some [.read 0x1FFF 256 7] := by
  decide +kernel

/-- R3: the response goes to the fabric unchanged. -/
theorem test_readResponse : (after (.readResponse 7 [1, 2]) stopped).fabricOut = [{ tag := 7, data := [1, 2] }] := by
  decide +kernel

/-- R6: forwarded unchanged to its own address. -/
theorem test_passWrite :
    (after (.passWrite { addr := 0x7000, tag := 9, data := [5, 6] }) stopped).held.map (fun h => h.derived.map (·.req))
      = some [.write 0x7000 9 [5, 6]] := by decide +kernel

/-- R7, R154: forwarded, and copied to the shadow at the page offset. -/
theorem test_planWrite :
    let t := after (.planWrite { addr := 0x02000004, tag := 9, data := [0xF0, 0x03] }) stopped
    t.held.map (fun h => h.derived.map (·.req)) = some [.write 0x02000004 9 [0xF0, 0x03]]
      ∧ t.plan.shadow.field 2 4 = 1008 := by decide +kernel

/-! ### The ring and attention (section 8.8) -/

def ring (producer consumer : Nat) (timer : AttnTimer) : State :=
  { stopped with report := { stopped.report with
      producer := BitVec.ofNat 32 producer, consumer := BitVec.ofNat 32 consumer, attnTimer := timer } }

/-- Event 5: d = −1, held, BAD_CONSUMER raised with detail 30, 31. -/
theorem test_consumerWord_behind :
    let t := after (.consumerWord 1 30) (ring 32 31 .expired)
    t.report.consumer = 31 ∧ t.report.latches[51].detail = some (.badConsumer 30 31) := by decide +kernel

/-- Event 7: d = 9 > 2, clamped to 33; the timer goes IDLE and ATTN low. -/
theorem test_consumerWord_ahead :
    let t := after (.consumerWord 1 40) (ring 33 31 .expired)
    t.report.consumer = 33 ∧ t.report.attnTimer = .idle ∧ t.report.attn = false
      ∧ t.plan.shadow.field 4 0xF00 = 40 := by decide +kernel

/-- Event 3: with two records unconsumed the expiry raises ATTN. -/
theorem test_attentionTimerExpiry :
    let t := after .attentionTimerExpiry (ring 32 30 (.running 1))
    t.report.attnTimer = .expired ∧ t.report.attn = true := by decide +kernel

/-- The ERROR notice of latch 20 presented at entry 30 mod 16 = 14. -/
def noticed : State := present (raise 20 (.seqGap 7 1) (ring 30 30 .idle))

/-- Event 1: entry 14, producer 31, timer RUNNING with 2000, latch 20 NOTIFIED. -/
theorem test_recordTaken :
    let t := after .recordTaken noticed
    t.memStream.map (fun r => match r with | .write a _ d => (a, d.take 4) | .read a _ _ => (a, []))
        = [(0x03000000 + 32 * 14, [0x02, 20, 3, 3])]
      ∧ t.report.producer = 31 ∧ t.report.attnTimer = .running 2000 ∧ t.report.latches[20].standing = .notified := by
  decide +kernel

/-! ### The plan page and the commands -/

/-- The plan page of section 12.1, byte by byte from the layouts R185 and R186. -/
def page : Memory :=
  Memory.writeBytes (Memory.writeBytes (Memory.writeBytes (Memory.writeBytes (Memory.writeBytes (Memory.writeBytes
    (Memory.writeBytes []
      0x000 [0x02, 0x00, 0x01, 0x04, 0xF0, 0x03, 0x00, 0x80, 0x00, 0x40, 0xE8, 0x03, 0x00, 0x00, 0x78, 0x00,
             0x04, 0x01, 0x00, 0x01, 0x00, 0x00, 0x02, 0x00, 0x88, 0x13, 0x00, 0x00, 0xD0, 0x07, 0x00, 0x00,
             0x03, 0x01, 0x04, 0x00, 0x10, 0x00, 0x00, 0x00, 0x00, 0x20, 0x00, 0x02, 0x00, 0x00, 0x00, 0x00,
             0x00, 0x00, 0x00, 0x03])
      0x080 [0x00, 0x01])
      0x0C0 [0x20, 0x00, 0x00, 0x00, 0x21, 0x01])
      0x100 [0x00, 0x00, 0x00, 0x00, 0x01, 0x00, 0x00, 0x00, 0x00, 0x00, 0x00, 0x01, 0x00, 0x00, 0x00, 0x00,
             0x00, 0x40, 0x00, 0x00, 0xFF, 0x00, 0x00, 0x00])
      0x120 [0x00, 0x00, 0x00, 0x40, 0x01, 0x00, 0x00, 0x00, 0x00, 0x00, 0x40, 0x00, 0x00, 0x00, 0x00, 0x00,
             0x00, 0x40, 0x00, 0x00, 0x11, 0x00, 0x80, 0x00])
      0x200 [0x00, 0x00, 0x00, 0x40, 0x00, 0x00, 0x00, 0x00, 0x00, 0x20, 0x00, 0x00, 0x40, 0x00, 0x00, 0x08,
             0x00, 0x00, 0x00, 0x00, 0x40, 0x00, 0x00, 0x10, 0x00, 0x00, 0x00, 0x00, 0x01])
      0x240 [0x00, 0x00, 0x10, 0x40, 0x00, 0x00, 0x00, 0x00, 0x00, 0x20, 0x00, 0x00, 0x40, 0x00, 0x00, 0x08,
             0x00, 0x00, 0x00, 0x00, 0x00, 0x00, 0x00, 0x10, 0x00, 0x10, 0x00, 0x00, 0x00]

/-- R181, R185, R186: the page holds the plan. -/
theorem test_page_holds_plan : readPlan page = plan := by decide +kernel

/-- R91, R186: with F = 2, entries 2 and 3 of the phase map are not read, whatever they hold; entry 1 is. -/
theorem test_phase_map_above_F_is_not_read :
    readPlan ((page.write 0x82 1).write 0x83 7) = plan ∧ readPlan (page.write 0x81 0) ≠ plan := by decide +kernel

/-- A state with a plan page in the shadow. -/
def paged (m : Memory) (s : State) : State := { s with plan := { s.plan with shadow := m } }

def dormant : State := paged page (State.resetWith 2)

/-- The acknowledge word that waits, or that the presented write carries. -/
def ackOf (s : State) : Option (List Byte) :=
  match s.report.ackWaiting with
  | some a => some a.bytes
  | none => match s.report.presented with
    | some ⟨.ackWord, _, d⟩ => some d
    | _ => none

/-- Section 12.2: the first COMMIT: STOPPED, generation 1, the producer word 0 first, then tag 0x01, (0x50, 0x00). -/
theorem test_commit_first :
    let t := after (.commit (mail 0 0 0 1)) dormant
    t.capture.device = .stopped ∧ t.plan.generation = 1 ∧ t.plan.live = some plan
      ∧ t.report.presented = some { kind := .producerWord, addr := 0x02001004, data := [0, 0, 0, 0] }
      ∧ ackOf t = some [0x01, 0x50, 0x00, 1] := by decide +kernel

/-- Section 9.7 step 2: LANE_ENABLE names a vacant lane: (0xE1, 11), and nothing is taken. -/
theorem test_commit_lane_enable :
    let t := after (.commit (mail 0 0 0 0x12)) (paged (page.write 0x20 0x43) (under plan .running))
    ackOf t = some [0x12, 0xE1, 11, 3] ∧ t.plan.generation = 7 := by decide +kernel

/-- Section 12.2: START in MARK mode: ARMED, lanes 0 and 1 SEEKING, the others OFF. -/
theorem test_start :
    let t := after (.start (mail 0 1 0 2)) stopped
    ackOf t = some [2, 0x50, 0x00, 2] ∧ t.reg.mode = .mark
      ∧ t.lanes.toList.map LaneTracker.state = [.seeking, .seeking, .off, .off, .off, .off, .off, .off] := by
  decide +kernel

/-- R171: START in RUNNING is refused BAD_STATE. -/
theorem test_start_refused : ackOf (after (.start (mail 0 0 0 2)) run1) = some [2, 0xE0, 0x02, 3] := by decide +kernel

/-- Section 12.5: frames 1 and 2 are open, lane 1 is TAKING a line at q = 1990 of frame 1. -/
def beforeStop : State :=
  let s := under plan .running
  let f1 : Frame := { frame3 with
    number := 1, slot := some 1, start := 51760, residue := 49152, rows := 1001, fixed := true, hi := some 1000,
    cursors := (Vector.replicate 8 .closed).set 1 (.expects 1991), passed := 1, markTaken := true, endSeen := true }
  let f2 : Frame := { frame3 with
    number := 2, slot := some 2, start := 53762, residue := 24576, correction := 24576, hi := some 4, delivered := 1,
    cursors := (Vector.replicate 8 (.expects 0)).set 0 (.expects 10) }
  { s with
    lanes := lanesOf locked { locked with context := .taking { slot := 3, expected := 24600, lineEnd := 24700 } 1 1990 .none }
    reg := { s.reg with
      origin := some 49760
      next := some { frame := 3, start := 55762, residue := 40960, correction := 0, clamped := false, fixed := false } }
    table := { s.table with
      openFrames := [f1, f2]
      slots := (s.table.slots.set 1 .filling).set 2 .filling
      sealTimer := .running 1 4000 } }

def entryCounts (s : State) : List (Nat × Nat) :=
  s.table.queue.map fun e => match e with
    | .slot e => (e.missing, e.damaged)
    | .skip e => (e.missing, e.damaged)

/-- Section 12.5: missing 11 with damaged 1, then missing 3990; slots 1 and 2 PATCHING, DRAINING, mark-lost count 1, the
next boundary fixed at 55,762. -/
theorem test_stop :
    let t := after (.stop (mail 0 0 0 4)) beforeStop
    entryCounts t = [(11, 1), (3990, 0)] ∧ t.capture.device = .draining ∧ t.reg.markLost = 1
      ∧ t.table.slots.toList.take 4 = [.free, .patching, .patching, .free]
      ∧ t.reg.next.map (fun b => (b.start, b.residue, b.fixed)) = some (55762, 40960, true) := by decide +kernel

/-- R178, and section 12.6: ABORT seals the frames ABORTED, their slots go READY, and the notice is handed over first. -/
theorem test_abort :
    let t := after (.abort (mail 0 0 0 3)) beforeStop
    t.table.queue.map (fun e => match e with | .slot e => e.status | .skip _ => .skipped) = [.aborted, .aborted]
      ∧ t.table.slots.toList.take 4 = [.free, .ready, .ready, .free] ∧ t.capture.device = .stopped
      ∧ t.report.stateNotice.map (fun x => (x.device, x.cause)) = some (.stopped, .abort)
      ∧ ackOf t = some [3, 0x50, 0x00, 1] := by decide +kernel

/-- R88: FLUSH with no frame open finds nothing to do; section 12.5's oldest frame seals FLUSHED with missing 11. -/
theorem test_flush :
    ackOf (after (.flush (mail 0 0 0 5)) stopped) = some [5, 0x50, 0x01, 1]
      ∧ entryCounts (after (.flush (mail 0 0 0 5)) beforeStop) = [(11, 1)] := by decide +kernel

def held0 : State := { stopped with table := { stopped.table with slots := stopped.table.slots.set 0 .held } }

/-- R86: slot 0 HELD goes FREE; slot 1 is refused BAD_SLOT. -/
theorem test_release :
    ackOf (after (.release (mail 0 0 0 3)) held0) = some [3, 0x50, 0x00, 1]
      ∧ (after (.release (mail 0 0 0 3)) held0).table.slots[0] = .free
      ∧ ackOf (after (.release (mail 1 0 0 3)) held0) = some [3, 0xE0, 0x04, 1] := by decide +kernel

/-- R166 to R168, R190: two writes of 256 and 40 bytes at 0x100 and 0x200 of the status area; the block begins with the
device state, and bytes 24 to 31 hold producer and consumer; SNAPSHOT is pending. -/
theorem test_snapshot :
    let t := after (.snapshot (mail 0 0 0 0x14)) (ring 33 31 .idle)
    t.report.presented.map (fun w => (w.addr, w.data.length, w.data.take 1, (w.data.drop 24).take 8))
        = some (0x02001100, 256, [1], [33, 0, 0, 0, 31, 0, 0, 0])
      ∧ t.report.snapshotWrites.map (fun w => (w.1, w.2.length)) = [(0x02001200, 40)]
      ∧ t.plan.pendingCommand = some (.snapshot 0x14) := by decide +kernel

/-- R148: with a latch raised CLEAR_ERRORS is done and the latch CLEAR with its count kept; with none there is nothing to
do. -/
theorem test_clearErrors :
    let t := after (.clearErrors (mail 0 0 0 6)) (raise 20 (.seqGap 7 1) stopped)
    ackOf t = some [6, 0x50, 0x00, 1] ∧ t.report.latches[20].standing = .clear ∧ t.report.latches[20].count = 1
      ∧ ackOf (after (.clearErrors (mail 0 0 0 6)) stopped) = some [6, 0x50, 0x01, 1] := by decide +kernel

/-- Section 2.12.3: INJECT with lane 0, SEQ_SKIP, countdown 2; R37: a vacant lane is BAD_ARGUMENT. -/
theorem test_inject :
    (after (.inject (mail 0 2 2 7)) run1).lanes[0].injection = some { kind := .seqSkip, countdown := 2 }
      ∧ ackOf (after (.inject (mail 6 2 2 7)) run1) = some [7, 0xE0, 0x03, 3] := by decide +kernel

/-- R158: a code that names no command. -/
theorem test_unknown : ackOf (after (.unknown 0x0A (mail 0 0 0 8)) dormant) = some [8, 0xE0, 0xFF, 0] := by
  decide +kernel

/-! ### Lines -/

/-- Section 2.12.1: a lock of four lines, GAP_LIMIT 2: the state, the progress and the outcome of each tag. -/
theorem test_lock_across_wrap :
    let e : LaneEntry := { lane0 with lockCode := 2, gapLimit := 2 }
    let feed (l : LaneTracker) (t : Half × Count) : LockResult := lockRule e t.1 t.2 l
    let see (r : LockResult) : LaneState × Nat × Bool := (r.lane.state, r.lane.progress, r.accepted)
    let r1 := feed { LaneTracker.atReset with state := .seeking } (65533, 1000)
    let r2 := feed r1.lane (65534, 1001)
    let r3 := feed r2.lane (65535, 1003)
    let r4 := feed r3.lane (0, 1004)
    let r5 := feed r4.lane (1, 1005)
    let r6 := feed r5.lane (2, 1006)
    let r7 := feed r6.lane (4, 1008)
    let r8 := feed r7.lane (4, 1008)
    let r9 := feed r8.lane (5, 1012)
    let r10 := feed r9.lane (6, 1013)
    [r1, r2, r3, r4, r5, r6, r7, r8, r9, r10].map see
        = [(.locking, 1, false), (.locking, 2, false), (.locking, 1, false), (.locking, 2, false), (.locking, 3, false),
           (.locked, 0, true), (.locked, 0, true), (.locked, 0, false), (.locking, 1, false), (.locking, 2, false)]
      ∧ r7.raised = some (.seqGap, .seqGap 4 1) ∧ r8.raised = some (.duplicate, .duplicate 4 4)
      ∧ r9.raised = some (.lockLost, .lockLost .gap 5 1012 0 3) := by decide +kernel

/-- Section 12.3 before event C: frame 0 with lane 0 at 1998 and lane 1 at 1990. -/
def beforeC : State :=
  let s := under plan .running
  let f0 : Frame := { frame3 with
    number := 0, slot := some 0, start := 49760, residue := 32768, hi := some 998, markTaken := true, missing := 482,
    cursors := ((Vector.replicate 8 (.expects 0)).set 0 (.expects 1998)).set 1 (.expects 1990),
    runs := [{ lane := 0, first := 0, count := 241 }, { lane := 1, first := 0, count := 241 }] }
  { s with
    lanes := lanesOf { locked with lastP := 51757 } { locked with lastP := 51749 }
    reg := { s.reg with
      origin := some 49760
      next := some { frame := 1, start := 51760, residue := 49152, correction := 0, clamped := false, fixed := false } }
    table := { s.table with
      openFrames := [f0], slots := s.table.slots.set 0 .filling, lastAllocated := some 0 } }

/-- Event C: SEQ_GAP is raised with gap 2, frame 1 opens in slot 1 at 51,760 with residue 49,152 and N 1001, the run
(0, 1998, 2) is recorded in frame 0, and the seal timer is loaded with 5000 ticks. -/
theorem test_lineStart_opens_frame :
    let t := after (.lineStart (start0 103 51760 4096)) beforeC
    t.report.latches[2].detail = some (.seqGap 103 2)
      ∧ t.table.openFrames.map (fun f => (f.number, f.slot, f.start, f.residue, f.rows, f.fixed))
        = [(0, some 0, 49760, 32768, 1000, true), (1, some 1, 51760, 49152, 1001, false)]
      ∧ t.table.openFrames.map (fun f => (f.cursors[0], f.missing)) = [(.closed, 484), (.expects 1, 0)]
      ∧ t.table.sealTimer = .running 0 5000 := by decide +kernel

/-- Section 12.2 before event A: ARMED in MARK origin mode. -/
def armed : State :=
  let s := under plan .armed
  { s with
    lanes := lanesOf { LaneTracker.atReset with state := .seeking } { LaneTracker.atReset with state := .seeking }
    reg := { s.reg with mode := .mark } }

/-- Event A: the origin is 49,760; frame 0 opens in slot 0; the line is at q = 241; the run (0, 0, 241) is recorded, and
N is 1000 with the next boundary at 51,760 and residue 49,152. -/
theorem test_lineStart_sets_origin :
    let t := after (.lineStart (write0 8192 (tagBytes 9 50001 4096 true ++ [1, 2, 3, 4]))) armed
    t.capture.device = .running ∧ t.reg.origin = some 49760
      ∧ t.table.openFrames.map (fun f => (f.slot, f.start, f.rows)) = [(some 0, 49760, 1000)]
      ∧ t.table.openFrames.map (fun f => (f.cursors[0], f.hi, f.markTaken)) = [(.expects 242, some 120, true)]
      ∧ t.table.openFrames.map (fun f => f.runs) = [[{ lane := 0, first := 0, count := 241 }]]
      ∧ t.reg.next.map (fun b => (b.frame, b.start, b.residue)) = some (1, 51760, 49152) := by decide +kernel

/-- Section 5.10.2 before burst 16: lane 0 is TAKING a line of 4000 pixels at q = 1001 of frame 3 in slot 2. -/
def beforeBurst16 : State :=
  let line : LineExtent := { slot := 1, expected := 8192 + 0xF00, lineEnd := 8192 + 0xFB0 }
  running plan [frame3] { locked with context := .taking line 3 1001 (.write 1 0x1409F4000) } locked

def burst16 : FabricWrite := write0 (8192 + 0xF00) (List.replicate 256 0x55)

/-- Burst 16: 176 bytes at 0x1_409F_4EB0, then 160 bytes of padding 0x80 at 0x1_409F_4F60; the line is COMPLETE. -/
theorem test_continuation_with_padding :
    let t := after (.continuation burst16) beforeBurst16
    t.held.map (fun h => h.derived.map (·.req))
        = some [.write 0x1409F4EB0 0 (List.replicate 176 0x55), .write 0x1409F4F60 0 (List.replicate 160 0x80)]
      ∧ t.lanes[0].context = .complete { slot := 1, expected := 8192 + 0xFB0, lineEnd := 8192 + 0xFB0 } := by
  decide +kernel

/-- Section 2.12.2, burst k: a continuation in a slot without a line start is ORPHAN, code 8, and the lane is SINKING. -/
theorem test_continuation_orphan :
    let t := after (.continuation (write0 0x6040 [1]))
      (running plan [frame3]
        { locked with context := .complete { slot := 2, expected := 0x5810, lineEnd := 0x5810 } } locked)
    t.report.latches[1].detail = some (.malformed 8 0x6040) ∧ t.lanes[0].context = .sinking 3 := by decide +kernel

/-- R2, R12: the destination write of burst 16 is taken first, and the padding stays. -/
theorem test_derivedRequestTaken :
    let t := after .derivedRequestTaken (after (.continuation burst16) beforeBurst16)
    t.memStream = [.write 0x1409F4EB0 0 (List.replicate 176 0x55)]
      ∧ t.held.map (fun h => h.derived.map (·.req)) = some [.write 0x1409F4F60 0 (List.replicate 160 0x80)] := by
  decide +kernel

/-- Section 12.2: the producer word 0 is taken first, and the acknowledge word of tag 0x01 is presented next. -/
theorem test_reportWordTaken :
    let t := after .reportWordTaken { after (.commit (mail 0 0 0 1)) dormant with held := none }
    t.memStream = [.write 0x02001004 0 [0, 0, 0, 0]]
      ∧ t.report.presented = some { kind := .ackWord, addr := 0x02001000, data := [0x01, 0x50, 0x00, 1] } := by
  decide +kernel

/-- A SNAPSHOT of tag 0x14 whose last write is presented. -/
def lastSnapshotWrite : State :=
  let s := under plan .running
  { s with
    plan := { s.plan with pendingCommand := some (.snapshot 0x14) }
    report := { s.report with presented := some { kind := .snapshotWrite, addr := 0x02001200, data := [1] } } }

/-- Section 9.7 step 7: the last snapshot write is taken: tag 0x14, (0x50, 0x00), RUNNING, and nothing is pending. -/
theorem test_snapshotWriteTaken :
    let t := after .snapshotWriteTaken lastSnapshotWrite
    ackOf t = some [0x14, 0x50, 0x00, 3] ∧ t.plan.pendingCommand = none := by decide +kernel

/-- Section 12.4: slot 0 of frame 0 is PATCHING with the run (0, 0, 241), and the last write of position 0 waits. -/
def patching : State :=
  let s := under plan .running
  let e : SlotEntry :=
    { number := 0, slot := 0, status := .incomplete, rows := 1000, start := 49760, correction := 0, clamped := false,
      missing := 484, damaged := 0, delivered := 3, firstTime := none, markTaken := true, overflow := false,
      filled := false, abandoned := false, patchList := some [{ lane := 0, first := 0, count := 241 }] }
  { s with
    table := { s.table with queue := [.slot e], slots := s.table.slots.set 0 .patching }
    patch := .active { slot := 0, runIndex := 0, posIndex := 0, plane := 0, byteOffset := 3840,
                       waiting := some (.write 0x100000F00 0 (List.replicate 256 0)) } }

/-- Section 12.4: after the sixteenth write of q = 0, the first of q = 1, row 0 of plane 1, 256 bytes of 0x80, waits. -/
theorem test_fillWriteTaken :
    (after .fillWriteTaken patching).patch
      = .active { slot := 0, runIndex := 0, posIndex := 1, plane := 1, byteOffset := 0,
                  waiting := some (.write 0x140000000 0 (List.replicate 256 0x80)) } := by decide +kernel

/-- Section 6.9, event 4, timer first, with lane 1 in the place of lane 2 and frame 7 in slot 3. -/
def timerRace : State :=
  let s := under plan .running
  let f6 : Frame := { frame3 with
    number := 6, slot := some 2, start := 1000, fixed := true, endSeen := true, missing := 302, passed := 1,
    cursors := (Vector.replicate 8 .closed).set 1 (.expects 1850) }
  let f7 : Frame := { frame3 with
    number := 7, slot := some 3, start := 3000, cursors := Vector.replicate 8 (.expects 40) }
  { s with
    held := some { request := .write (write1 8208 [1]), lane := some 1,
                   derived := [{ kind := .steer 6, req := .write 0x102E73000 0 [1] }] }
    lanes := lanesOf locked { locked with context := .taking { slot := 1, expected := 8300, lineEnd := 8400 } 6 1849 .none }
    reg := { s.reg with
      next := some { frame := 8, start := 5000, residue := 0, correction := 0, clamped := false, fixed := false } }
    table := { s.table with
      openFrames := [f6, f7], slots := (s.table.slots.set 2 .filling).set 3 .filling
      sealTimer := .running 6 1 } }

/-- Section 6.9: the waiting write is withdrawn, damaged 1, missing 452, TIMED_OUT, slot 2 PATCHING, the timer idle. -/
theorem test_sealTimerExpiry :
    let t := after .sealTimerExpiry timerRace
    entryCounts t = [(452, 1)] ∧ t.held = none ∧ t.memStream = [] ∧ t.table.slots[2] = .patching
      ∧ t.table.queue.map (fun e => match e with | .slot e => e.status | .skip _ => .skipped) = [.timedOut]
      ∧ t.table.sealTimer = .idle ∧ t.table.openFrames.map Frame.number = [7] := by decide +kernel

/-! ### Arithmetic of the worked sections -/

/-- Section 3.10.1: the chain with no marks. -/
theorem test_boundaries_no_marks :
    [32768, 49152, 0, 16384].map (fun r =>
        let f := { frame3 with residue := r, hi := none, start := 0 }
        (provisionalRows plan 0 f, (nextBoundary plan 0 f).residue))
      = [(1000, 49152), (1001, 0), (1000, 16384), (1000, 32768)] := by decide +kernel

/-- Sections 3.10.4 and 3.10.5: the two clamps. -/
theorem test_boundary_clamps :
    let low := { plan with static := { plan.static with frameRows := 1001 } }
    let b (p : Plan) (pending : Int) (h : Nat) :=
      nextBoundary p pending { frame3 with residue := 49152, hi := some h, start := 12006 }
    ((b low 122880 124).correction, (b low 122880 124).residue, (b low 122880 124).clamped) = (65535, 65535, true)
      ∧ ((b plan (-73728) 999).correction, (b plan (-73728) 999).residue, (b plan (-73728) 999).clamped)
        = (-65536, 0, true) := by decide +kernel

/-- Section 3.10.7: the errors of marks at rows 121, 125, 124 and 118. -/
theorem test_mark_errors :
    [121, 125, 124, 118].map (markError plan.static 49152) = [49152, 311296, 245760, -147456] := by decide +kernel

/-- Section 5.10.1: the placements of q = 998, 999, 1000, 1001 and 1009. -/
theorem test_placements :
    [998, 999, 1000, 1001, 1009].map (placementOf plan.static (some 2))
      = [.write 0 0x1027CC000, .none, .write 0 0x1027D0000, .write 1 0x1409F4000, .write 1 0x1409F8000] := by
  decide +kernel

/-- Section 3.10.6: MARK_OFFSET 120.75 rows gives the mark row 121 and the residue 49,152; 120.0 rows gives 120 and
32,768. -/
theorem test_mark_origin :
    markOrigin { plan.static with markOffset := 7913472 } = (121, 49152) ∧ markOrigin plan.static = (120, 32768) := by
  decide +kernel

/-! ### Witnesses of the statements -/

theorem only_byte {v b : Byte} {i : Nat} (h : [v][i]? = some b) : i = 0 ∧ v = b := by
  cases i with
  | zero => exact ⟨rfl, Option.some.inj h⟩
  | succ i => cases h

def ticking (t : SealTimer) (a : AttnTimer) : State :=
  { run1 with table := { run1.table with sealTimer := t }, report := { run1.report with attnTimer := a } }

theorem witness_StepRunsFrontCommand :
    ({ run1 with pending := [Instr.recordTaken] }).pending = .recordTaken :: []
      ∧ (run1.pending = [] ∧ run1.table.sealTimer = .idle ∧ ∀ r, run1.report.attnTimer ≠ .running r)
      ∧ (ticking (.running 3 2) (.running 2)).table.sealTimer = .running 3 2
      ∧ (ticking (.running 3 2) (.running 2)).report.attnTimer = .running 2
      ∧ (ticking (.running 3 1) (.running 1)).table.sealTimer = .running 3 1
      ∧ (ticking (.running 3 1) (.running 1)).report.attnTimer = .running 1 := by
  refine ⟨rfl, ⟨rfl, rfl, nofun⟩, rfl, rfl, rfl, rfl⟩

/-- Both timers expire at one tick: the seal of frame 3 leaves the attention timer running, and then it expires. -/
theorem test_tickExpiresBoth :
    (tick (ticking (.running 3 1) (.running 1))).report.attnTimer = .expired
      ∧ (tick (ticking (.running 3 1) (.running 1))).table.openFrames = []
      ∧ (after .sealTimerExpiry (ticking (.running 3 1) (.running 1))).report.attnTimer = .running 1 := by decide +kernel

/-- Requests just outside R1, and just inside it. -/
theorem witness_OnlyBadRequestsStop :
    (∃ a len tag, Instr.read 0 257 1 = .read a len tag ∧ ¬(1 ≤ len ∧ len ≤ 256))
      ∧ (∃ w, Instr.lineStart (write0 4095 [1, 2]) = .lineStart w ∧ ¬(w.addr.toNat % 4096 + w.data.length ≤ 4096))
      ∧ ((write0 4094 [1, 2]).addr.toNat % 4096 + (write0 4094 [1, 2]).data.length ≤ 4096)
      ∧ ¬∃ a len tag, Instr.read 0 256 1 = .read a len tag ∧ ¬(1 ≤ len ∧ len ≤ 256) := by
  refine ⟨⟨0, 257, 1, rfl, by decide⟩, ⟨_, rfl, by decide +kernel⟩, by decide +kernel, ?_⟩
  rintro ⟨a, len, tag, h, bad⟩
  cases h
  exact bad (by decide)

theorem witness_PowerOnReset : run1.offered = [] := rfl

theorem witness_ReadsPassUnchanged : run1.portFree ∧ 1 ≤ 1 ∧ 1 ≤ 256 ∧ 1 ≤ 256 ∧ 256 ≤ 256 := by decide +kernel

/-- A port that holds one read, with one derived request. -/
def holding : State := after (.read 0x1000 4 7) run1

/-- A port that holds a burst with two derived writes. -/
def holdingTwo : State := after (.continuation burst16) beforeBurst16

theorem witness_PortHoldsOneRequest :
    (holding.held.isSome = true ∧ (write0 0 [1]).ok = true)
      ∧ (∃ h d e, holdingTwo.held = some h ∧ h.derived = d :: [e])
      ∧ (∃ h d, holding.held = some h ∧ h.derived = d :: [] ∧ holding.offered = [])
      ∧ ∃ h d, ({ holding with offered := [.read 5 1 2] }).held = some h ∧ h.derived = d :: []
          ∧ ({ holding with offered := [.read 5 1 2] }).offered = .read 5 1 2 :: [] := by
  let d : Derived := { kind := .steer 3, req := .write 0x1409F4EB0 0 (List.replicate 176 0x55) }
  let e : Derived := { kind := .steer 3, req := .write 0x1409F4F60 0 (List.replicate 160 0x80) }
  have two : holdingTwo.held = some { request := .write burst16, lane := some 0, derived := d :: [e] } := by
    decide +kernel
  exact ⟨by decide +kernel, ⟨_, _, _, two, rfl⟩, ⟨_, _, rfl, rfl, rfl⟩, ⟨_, _, rfl, rfl, rfl⟩⟩

theorem witness_PassWriteIsForwarded :
    let w : FabricWrite := { addr := 0x02001000, tag := 0, data := [1] }
    w.ok = true ∧ run1.portFree ∧ classify run1 w.addr.toNat = .pass := by decide +kernel

/-- A PLAN write of one byte at a page offset. -/
def planByte (off : Nat) (v : Byte) : FabricWrite :=
  { addr := BitVec.ofNat 48 (0x02000000 + off), tag := 1, data := [v] }

theorem witness_PlanWriteIsCopied :
    (run1.portFree ∧ run1.plan.shadow.wf = true ∧ present run1 = run1)
      ∧ (∀ off ∈ [0, 0xF02, 0xF04, 0xF4C, 0xF4E, 4095], (planByte off 7).ok = true
          ∧ run1.planBase ≤ (planByte off 7).addr.toNat ∧ (planByte off 7).addr.toNat < run1.planBase + 4096
          ∧ (planByte off 7).addr.toNat - run1.planBase ≠ 0xF03 ∧ (planByte off 7).addr.toNat - run1.planBase ≠ 0xF4D)
      ∧ (planByte 0xF4D 0).addr.toNat - run1.planBase = 0xF4D
      ∧ (∀ i b, (planByte 0xF4D 0).data[i]? = some b →
          (planByte 0xF4D 0).addr.toNat - run1.planBase + i ≠ 0xF03)
      ∧ ∀ i b, (planByte 0xF4D 0).data[i]? = some b →
          (planByte 0xF4D 0).addr.toNat - run1.planBase + i = 0xF4D → b = 0 := by
  refine ⟨by decide +kernel, by decide +kernel, by decide +kernel, ?_, ?_⟩
  · intro i b h; obtain ⟨rfl, _⟩ := only_byte h; decide +kernel
  · intro i b h _; exact (only_byte h).2.symm

theorem witness_WritesAreClassified :
    (run1.planBase ≤ 0x02000000 ∧ 0x02000FFF < run1.planBase + 4096)
      ∧ (run1.plan.live = some plan ∧ plan.static.lanes[0].winLines ≠ 0 ∧ plan.static.lanes[0].winBase ≤ 0x40000000
          ∧ 0x4007FFFF < plan.static.lanes[0].winBase + plan.static.lanes[0].winLines * plan.static.lanes[0].winStride)
      ∧ classify run1 0x02000000 = .plan ∧ classify run1 0x02000FFF = .plan
      ∧ classify run1 0x40000000 = .landing 0 ∧ classify run1 0x4007FFFF = .landing 0
      ∧ classify run1 0x40080000 = .pass ∧ classify run1 0x02001000 = .pass := by decide +kernel

theorem witness_ArbiterOrder :
    (∃ h, holding.held = some h ∧ h.derived ≠ []) ∧ noticed.report.presented.isSome = true :=
  ⟨⟨_, rfl, nofun⟩, by decide +kernel⟩

theorem witness_BurstsAreChecked :
    (Lands (start0 101 1021 100) 0 stopped ∧ Quiet stopped ∧ stopped.lanes[(0 : Lane)].state = .off)
      ∧ Lands { start0 101 1021 100 with tag := 0 } 0 run1 ∧ Quiet run1 ∧ run1.lanes[(0 : Lane)].state ≠ .off
      ∧ ¬RequesterKnown { start0 101 1021 100 with tag := 0 } 0 run1
      ∧ ¬RequesterKnown { start0 101 1021 100 with tag := 0x21 } 0 run1 := by decide +kernel

/-- A line start with a wrong marker. -/
def badStart : FabricWrite := write0 8192 (0xA5 :: (tagBytes 101 1021 100 false).drop 1)

theorem witness_MalformedTags :
    (LineStarts badStart 0 run1 ∧ Quiet run1)
      ∧ tagFault run1.livePlan.static.pixelBytes (run1.entry 0).winStride (windowData badStart 0 run1) = some 2
      ∧ NoInjection 0 run1 ∧ NoInjection 0 (running plan [frame3]
          { locked with injection := some { kind := .drop, countdown := 2 } } locked) := by
  refine ⟨by decide +kernel, by decide +kernel, noInjection_of_none (by decide +kernel), ?_⟩
  intro i h
  cases h
  decide

def injecting (kind : InjectionKind) : State :=
  running plan [frame3] { locked with injection := some { kind := kind, countdown := 1 } } locked

theorem witness_InjectedLinesAreSetAside :
    (LineStarts (start0 101 1021 100) 0 (injecting .drop) ∧ Quiet (injecting .drop)
        ∧ (injecting .drop).lanes[(0 : Lane)].injection = some { kind := .drop, countdown := 1 })
      ∧ (LineStarts (start0 101 1021 100) 0 (injecting .tagFault) ∧ Quiet (injecting .tagFault)
        ∧ (injecting .tagFault).lanes[(0 : Lane)].injection = some { kind := .tagFault, countdown := 1 })
      ∧ ∀ kind ∈ [InjectionKind.seqSkip, .encShift, .mark],
          LineStarts (start0 101 1021 100) 0 (injecting kind) ∧ TagWellFormed (start0 101 1021 100) 0 (injecting kind)
            ∧ LineStarts badStart 0 (injecting kind) ∧ ¬TagWellFormed badStart 0 (injecting kind)
            ∧ (injecting kind).lanes[(0 : Lane)].injection = some { kind := kind, countdown := 1 } := by
  decide +kernel

theorem witness_LockRules :
    (LaneTracker.state { locked with state := .seeking } = .seeking ∧ 2 ^ lane0.lockCode = 1
        ∧ 2 ^ (LaneEntry.lockCode { lane0 with lockCode := 1 }) ≠ 1)
      ∧ (((101 : Half).toNat : Int) = ((locked.lastSeq.toNat : Int) + 1) % 65536
          ∧ ((1021 : Count).toNat : Int) = ((locked.lastP.toNat : Int) + 1) % 4294967296
          ∧ (LaneTracker.progress { locked with state := .locking, progress := 1 }) + 1 = 2 ^ 1
          ∧ (LaneTracker.progress { locked with state := .locking, progress := 1 }) + 1 ≠ 2 ^ 2)
      ∧ ¬(((100 : Half).toNat : Int) = ((locked.lastSeq.toNat : Int) + 1) % 65536)
      ∧ (locked.state = .locked ∧ 32768 ≤ (((32869 : Half).toNat : Int) - locked.lastSeq.toNat - 1) % 65536)
      ∧ ((((101 : Half).toNat : Int) - locked.lastSeq.toNat - 1) % 65536 = 0
          ∧ (((1021 : Count).toNat : Int) - locked.lastP.toNat - 1) % 4294967296 = 0)
      ∧ ((((109 : Half).toNat : Int) - locked.lastSeq.toNat - 1) % 65536 = lane0.gapLimit
          ∧ (((1029 : Count).toNat : Int) - locked.lastP.toNat - 1) % 4294967296 = lane0.gapLimit)
      ∧ ((((32868 : Half).toNat : Int) - locked.lastSeq.toNat - 1) % 65536 = 32767
          ∧ ¬((32767 : Int) ≤ lane0.gapLimit))
      ∧ (((110 : Half).toNat : Int) - locked.lastSeq.toNat - 1) % 65536 = lane0.gapLimit + 1 := by decide +kernel

/-- The plan with a lock of two lines in lane 0. -/
def slowLock : Plan :=
  { plan with static := { plan.static with lanes := plan.static.lanes.set 0 { lane0 with lockCode := 1 } } }

theorem witness_DroppedLineIsDiscarded :
    (LineStarts (start0 100 1020 100) 0 run1 ∧ Quiet run1 ∧ NoInjection 0 run1 ∧ NoLineInFlight 0 run1
        ∧ TagWellFormed (start0 100 1020 100) 0 run1 ∧ (lockOf (start0 100 1020 100) 0 run1).accepted = false
        ∧ (run1.lanes[(0 : Lane)].state = .locked → (lockOf (start0 100 1020 100) 0 run1).lane.state = .locked))
      ∧ let s := running slowLock [] locked locked
        (LineStarts (start0 101 1022 100) 0 s ∧ Quiet s ∧ NoInjection 0 s ∧ NoLineInFlight 0 s
          ∧ TagWellFormed (start0 101 1022 100) 0 s ∧ (lockOf (start0 101 1022 100) 0 s).accepted = false
          ∧ s.table.openFrames = []) := by
  refine ⟨⟨by decide +kernel, by decide +kernel, noInjection_of_none (by decide +kernel),
    noLineInFlight_of_none (by decide +kernel), by decide +kernel, by decide +kernel, by decide +kernel⟩,
    by decide +kernel, by decide +kernel, noInjection_of_none (by decide +kernel),
    noLineInFlight_of_none (by decide +kernel), by decide +kernel, by decide +kernel, by decide +kernel⟩

/-- The hypotheses of an accepted line start in RUNNING that does not end its line, by evaluation. -/
abbrev Starts (w : FabricWrite) (n : Lane) (s : State) : Prop :=
  (LineStarts w n s ∧ Quiet s ∧ s.lanes[n].injection = none ∧ s.lanes[n].context = .none ∧ TagWellFormed w n s
    ∧ (lockOf w n s).accepted = true ∧ s.capture.device = .running) ∧ PartOfLine w n s

theorem Starts.running {w : FabricWrite} {n : Lane} {s : State} (h : Starts w n s) : AcceptedRunning w n s :=
  ⟨h.1.1, h.1.2.1, noInjection_of_none h.1.2.2.1, noLineInFlight_of_none h.1.2.2.2.1, h.1.2.2.2.2⟩

/-- RUNNING with frame 3 and lane 0 just before a position. -/
def before (p : Plan) (pos : Nat) : State :=
  running p [frame3] { locked with lastP := BitVec.ofNat 32 (pos - 1) } locked

/-- A line start of lane 0 in slot 1 with SEQ 101 and 4 pixel bytes, with a mark or without one. -/
def lineAt (pos : Nat) (mark : Bool) : FabricWrite := write0 8192 (tagBytes 101 pos 100 mark ++ [1, 2, 3, 4])

/-- Frame 4 in slot 3, right after frame 3, which then has a fixed N. -/
def frame4 : Frame :=
  { frame3 with number := 4, slot := some 3, start := 3000, residue := 16384, cursors := Vector.replicate 8 (.expects 0) }
def fixed3 : Frame := { frame3 with fixed := true }

/-- RUNNING with frames 3 and 4 open, and lane 0 just before a position. -/
def twoOpen (pos : Nat) : State :=
  let s := running plan [fixed3, frame4] { locked with lastP := BitVec.ofNat 32 (pos - 1) } locked
  { s with
    reg := { s.reg with
      next := some { frame := 5, start := 5000, residue := 0, correction := 0, clamped := false, fixed := false } }
    table := { s.table with slots := s.table.slots.set 3 .filling, lastAllocated := some 3 } }

/-- RUNNING in SINGLE mode with one frame open, and lane 0 just before a position. -/
def single (f : Frame) (pos : Nat) : State :=
  let s := running plan [f] { locked with lastP := BitVec.ofNat 32 (pos - 1) } locked
  { s with capture := { s.capture with mode := .single } }

theorem no_entry {q : List QueueEntry} {P : SlotEntry → Prop} (h : q = []) : ∀ e, .slot e ∈ q → P e := by
  subst h; nofun

/-- `twoOpen` with lane 1 past frame 3, and RUNNING with every slot taken, or with no frame open. -/
def othersPassed (pos : Nat) : State :=
  let s := twoOpen pos
  { s with table := { s.table with openFrames := [{ fixed3 with passed := 2 }, frame4] } }
def slotsHeld (pos : Nat) : State :=
  let s := before plan pos
  { s with table := { s.table with slots := (Vector.replicate 32 .held).set 2 .filling } }
def noneOpen (pos : Nat) : State := running plan [] { locked with lastP := BitVec.ofNat 32 (pos - 1) } locked

/-- One open frame: a line, with a mark of a MARK_SOURCE lane or without, at the cursor and at the last position, in
CONTINUOUS and in SINGLE mode. -/
theorem witness_AcceptedLineIsTaken :
    ∀ s ∈ [before plan, single frame3], ∀ mark ∈ [true, false], ∀ q ∈ [21, 1999],
      AcceptedRunning (lineAt (1000 + q) mark) 0 (s (1000 + q)) ∧ PartOfLine (lineAt (1000 + q) mark) 0 (s (1000 + q))
        ∧ ((s (1000 + q)).reg.next.isSome ∧ (s (1000 + q)).table.openFrames = [frame3] ∧ frame3.cursors[(0 : Lane)] = .expects 21)
        ∧ (tagPosition (lineAt (1000 + q) mark) 0 (s (1000 + q)) - frame3.start).toInt = q
        ∧ frame3.rows * (s (1000 + q)).livePlan.static.phases = 2000
        ∧ (readTag (windowData (lineAt (1000 + q) mark) 0 (s (1000 + q)))).mark = mark
        ∧ ((s (1000 + q)).entry 0).markSource = true := by
  have h : ∀ s ∈ [before plan, single frame3], ∀ mark ∈ [true, false], ∀ q ∈ [21, 1999],
      Starts (lineAt (1000 + q) mark) 0 (s (1000 + q))
        ∧ ((s (1000 + q)).reg.next.isSome ∧ (s (1000 + q)).table.openFrames = [frame3] ∧ frame3.cursors[(0 : Lane)] = .expects 21)
        ∧ (tagPosition (lineAt (1000 + q) mark) 0 (s (1000 + q)) - frame3.start).toInt = q
        ∧ frame3.rows * (s (1000 + q)).livePlan.static.phases = 2000
        ∧ (readTag (windowData (lineAt (1000 + q) mark) 0 (s (1000 + q)))).mark = mark
        ∧ ((s (1000 + q)).entry 0).markSource = true := by decide +kernel
  exact fun s hs mark hm q hq => ⟨(h s hs mark hm q hq).1.running, (h s hs mark hm q hq).1.2, (h s hs mark hm q hq).2⟩

/-- Two open frames: a line at the first and at the last position of frame 4, with lane 1 awaited in frame 3, and with no
lane awaited in it. -/
theorem witness_AcceptedLineIsTaken_older :
    ∀ s ∈ [twoOpen, othersPassed], ∀ q ∈ [0, 1999],
      AcceptedRunning (lineAt (3000 + q) true) 0 (s (3000 + q)) ∧ PartOfLine (lineAt (3000 + q) true) 0 (s (3000 + q))
        ∧ ((s (3000 + q)).capture.mode = .continuous ∧ (s (3000 + q)).reg.next.isSome
          ∧ frame4.cursors[(0 : Lane)] = .expects 0 ∧ fixed3.number ≠ frame4.number)
        ∧ (tagPosition (lineAt (3000 + q) true) 0 (s (3000 + q)) - fixed3.start).toInt = 2000 + q
        ∧ fixed3.rows * (s (3000 + q)).livePlan.static.phases = 2000
        ∧ ((s (3000 + q)).livePlan.run.laneEnable = 3 ∧ (s (3000 + q)).lanes[(1 : Lane)].state = .locked
          ∧ fixed3.fixed = true ∧ fixed3.slot = some 2 ∧ fixed3.cursors[(0 : Lane)] ≠ .closed ∧ frame4.passed = 0)
        ∧ (∀ e, .slot e ∈ (s (3000 + q)).table.queue → e.slot ≠ 2) := by
  have h : ∀ s ∈ [twoOpen, othersPassed], ∀ q ∈ [0, 1999],
      Starts (lineAt (3000 + q) true) 0 (s (3000 + q))
        ∧ ((s (3000 + q)).capture.mode = .continuous ∧ (s (3000 + q)).reg.next.isSome
          ∧ frame4.cursors[(0 : Lane)] = .expects 0 ∧ fixed3.number ≠ frame4.number)
        ∧ (tagPosition (lineAt (3000 + q) true) 0 (s (3000 + q)) - fixed3.start).toInt = 2000 + q
        ∧ fixed3.rows * (s (3000 + q)).livePlan.static.phases = 2000
        ∧ ((s (3000 + q)).livePlan.run.laneEnable = 3 ∧ (s (3000 + q)).lanes[(1 : Lane)].state = .locked
          ∧ fixed3.fixed = true ∧ fixed3.slot = some 2 ∧ fixed3.cursors[(0 : Lane)] ≠ .closed ∧ frame4.passed = 0)
        ∧ (s (3000 + q)).table.queue = [] := by decide +kernel
  exact fun s hs q hq =>
    ⟨(h s hs q hq).1.running, (h s hs q hq).1.2, (h s hs q hq).2.1, (h s hs q hq).2.2.1, (h s hs q hq).2.2.2.1,
      (h s hs q hq).2.2.2.2.1, no_entry (h s hs q hq).2.2.2.2.2⟩

/-- Lane 1 is awaited in the oldest frame of `twoOpen`, and no other lane than lane 0 in that of `othersPassed`. -/
theorem witness_AcceptedLineIsTaken_awaited :
    ((twoOpen 3000).table.openFrames = (fixed3 :: []) ++ frame4 :: [] ∧ Awaited (some 0) (twoOpen 3000) fixed3)
      ∧ (othersPassed 3000).table.openFrames = { fixed3 with passed := 2 } :: frame4 :: []
      ∧ ¬∃ m : Lane, m ≠ 0 ∧ (othersPassed 3000).livePlan.run.laneEnable.getLsbD m.val = true
          ∧ (othersPassed 3000).lanes[m].state = .locked
          ∧ (Frame.passed { fixed3 with passed := 2 }).getLsbD m.val = false :=
  ⟨⟨rfl, .inr ⟨1, by decide +kernel⟩⟩, rfl, by decide +kernel⟩

/-- The next frame: its first and its last position, with a FREE slot, with none, and with no frame open. -/
theorem witness_AcceptedLineIsTaken_next :
    ∀ s ∈ [before plan, slotsHeld, noneOpen], ∀ q ∈ [0, 1999],
      AcceptedRunning (lineAt (3000 + q) true) 0 (s (3000 + q)) ∧ PartOfLine (lineAt (3000 + q) true) 0 (s (3000 + q))
        ∧ ((s (3000 + q)).capture.mode = .continuous ∧ (s (3000 + q)).table.openFrames.length < 4
          ∧ (s (3000 + q)).reg.next = some { frame := 4, start := 3000, residue := 16384, correction := 0,
                                             clamped := false, fixed := false })
        ∧ ((s (3000 + q)).table.openFrames = [] ∨ (s (3000 + q)).table.openFrames = [frame3]
          ∧ frame3.number ≠ 4 ∧ frame3.rows * 2 = 2000 ∧ (s (3000 + q)).livePlan.static.phases = 2
          ∧ (s (3000 + q)).lanes[(1 : Lane)].state = .locked ∧ (s (3000 + q)).livePlan.run.laneEnable = 3
          ∧ frame3.passed = 0)
        ∧ (16384 + (s (3000 + q)).livePlan.static.repeatLen) / 65536 * 2 = 2000
        ∧ (tagPosition (lineAt (3000 + q) true) 0 (s (3000 + q))).toNat = 3000 + q := by
  have h : ∀ s ∈ [before plan, slotsHeld, noneOpen], ∀ q ∈ [0, 1999],
      Starts (lineAt (3000 + q) true) 0 (s (3000 + q))
        ∧ ((s (3000 + q)).capture.mode = .continuous ∧ (s (3000 + q)).table.openFrames.length < 4
          ∧ (s (3000 + q)).reg.next = some { frame := 4, start := 3000, residue := 16384, correction := 0,
                                             clamped := false, fixed := false })
        ∧ ((s (3000 + q)).table.openFrames = [] ∨ (s (3000 + q)).table.openFrames = [frame3]
          ∧ frame3.number ≠ 4 ∧ frame3.rows * 2 = 2000 ∧ (s (3000 + q)).livePlan.static.phases = 2
          ∧ (s (3000 + q)).lanes[(1 : Lane)].state = .locked ∧ (s (3000 + q)).livePlan.run.laneEnable = 3
          ∧ frame3.passed = 0)
        ∧ (16384 + (s (3000 + q)).livePlan.static.repeatLen) / 65536 * 2 = 2000
        ∧ (tagPosition (lineAt (3000 + q) true) 0 (s (3000 + q))).toNat = 3000 + q := by decide +kernel
  exact fun s hs q hq => ⟨(h s hs q hq).1.running, (h s hs q hq).1.2, (h s hs q hq).2⟩

/-- SINGLE mode: a line at the end of frame 0, with lane 1 awaited, and with every other lane past. -/
theorem witness_AcceptedLineIsTaken_single :
    (∀ f ∈ [frame3, { frame3 with passed := 2 }],
      AcceptedRunning (lineAt 3000 false) 0 (single f 3000)
        ∧ (single f 3000).capture.mode = .single ∧ (single f 3000).table.openFrames = [f]
        ∧ ((f.rows * (single f 3000).livePlan.static.phases : Nat) : Int)
          = (tagPosition (lineAt 3000 false) 0 (single f 3000) - f.start).toInt)
      ∧ ((1 : Lane) ≠ 0 ∧ (single frame3 3000).livePlan.run.laneEnable.getLsbD 1 = true
        ∧ (single frame3 3000).lanes[(1 : Lane)].state = .locked ∧ frame3.passed.getLsbD 1 = false)
      ∧ (frame3.slot = some 2 ∧ frame3.cursors[(0 : Lane)] ≠ .closed
        ∧ ¬∃ m : Lane, m ≠ 0 ∧ (single frame3 3000).livePlan.run.laneEnable.getLsbD m.val = true
            ∧ (single { frame3 with passed := 2 } 3000).lanes[m].state = .locked
            ∧ (Frame.passed { frame3 with passed := 2 }).getLsbD m.val = false)
      ∧ ∀ e, .slot e ∈ (single { frame3 with passed := 2 } 3000).table.queue → e.slot ≠ 2 := by
  have h : ∀ f ∈ [frame3, { frame3 with passed := 2 }],
      Starts (lineAt 3000 false) 0 (single f 3000)
        ∧ (single f 3000).capture.mode = .single ∧ (single f 3000).table.openFrames = [f]
        ∧ ((f.rows * (single f 3000).livePlan.static.phases : Nat) : Int)
          = (tagPosition (lineAt 3000 false) 0 (single f 3000) - f.start).toInt := by decide +kernel
  exact ⟨fun f hf => ⟨(h f hf).1.running, (h f hf).2⟩, by decide +kernel, by decide +kernel, no_entry rfl⟩

theorem witness_LateAndFarAheadLines :
    (∀ pos ∈ [999, 1020, 5000],
      let w := start0 101 pos 100
      let s := before plan pos
      LineStarts w 0 s ∧ Quiet s ∧ s.lanes[(0 : Lane)].injection = none ∧ s.lanes[(0 : Lane)].context = .none
        ∧ TagWellFormed w 0 s ∧ (lockOf w 0 s).accepted = true
        ∧ s.capture.device = .running ∧ s.capture.mode = .continuous ∧ s.table.openFrames = [frame3]
        ∧ s.reg.next.isSome)
      ∧ (tagPosition (start0 101 999 100) 0 (before plan 999) - frame3.start).toInt = -1 ∧ frame3.number ≠ 0
      ∧ ((tagPosition (start0 101 1020 100) 0 (before plan 1020) - frame3.start).toInt = 20
          ∧ frame3.cursors[0] = .expects 21)
      ∧ ((Frame.cursors { frame3 with cursors := Vector.replicate 8 .closed })[0] = .closed)
      ∧ (frame3.fixed = false
          ∧ (tagPosition (start0 101 5000 100) 0 (before plan 5000) - frame3.start).toInt = 4000
          ∧ frame3.rows * 2 + (16384 + 65552384) / 65536 * 2 = 4000)
      ∧ 2 ^ (run1.entry 0).lockCode = 1 ∧ 2 ^ ((before slowLock 5000).entry 0).lockCode ≠ 1
      ∧ (lockOf (start0 101 5000 100) 0 (before slowLock 5000)).accepted = true := by
  decide +kernel

/-- ARMED in FREE origin mode. -/
def armedFree : State := { armed with reg := { armed.reg with mode := .free } }

theorem witness_FreeOriginOpensFrameZero :
    ∀ enc ∈ [10006, 10007],
      let w := start0 9 enc 100
      LineStarts w 0 armedFree ∧ Quiet armedFree ∧ armedFree.lanes[(0 : Lane)].injection = none
        ∧ armedFree.lanes[(0 : Lane)].context = .none ∧ TagWellFormed w 0 armedFree
        ∧ (lockOf w 0 armedFree).accepted = true
        ∧ armedFree.capture.device = .armed ∧ armedFree.reg.mode = .free ∧ armedFree.table.openFrames = []
        ∧ (readTag (windowData w 0 armedFree)).mark = false
        ∧ (windowData w 0 armedFree).length < 16 + (readTag (windowData w 0 armedFree)).pix * 1 := by
  decide +kernel

/-- A line start of lane 0 with a mark, and one without; a plan whose mark row would be FRAME_ROWS (R48). -/
def markStart : FabricWrite := write0 8192 (tagBytes 9 50001 4096 true ++ [1, 2, 3, 4])
def lateMark : Plan :=
  { plan with static := { plan.static with markOffset := 1007 * 65536 + 65535, repeatLen := 1008 * 65536 } }

/-- MARK origin mode: a mark that qualifies (section 12.3, event A), and three candidates that do not. -/
theorem witness_FreeOriginOpensFrameZero_mark :
    (∀ x ∈ [(markStart, armed), (start0 9 50001 4096, armed),
            (markStart, { armed with plan := { armed.plan with live := some lateMark } })],
      LineStarts x.1 0 x.2 ∧ Quiet x.2 ∧ x.2.lanes[(0 : Lane)].injection = none ∧ x.2.lanes[(0 : Lane)].context = .none
        ∧ TagWellFormed x.1 0 x.2 ∧ (lockOf x.1 0 x.2).accepted = true ∧ (lockOf x.1 0 x.2).raised = none
        ∧ x.2.capture.device = .armed ∧ x.2.reg.mode = .mark ∧ x.2.table.openFrames = [])
      ∧ ((readTag (windowData markStart 0 armed)).mark = true ∧ (armed.entry 0).markSource = true
        ∧ (windowData markStart 0 armed).length < 16 + (readTag (windowData markStart 0 armed)).pix * 1
        ∧ plan.static.markOffset % 65536 ≤ plan.static.roundBias
        ∧ plan.static.markOffset / 65536 ≠ plan.static.frameRows)
      ∧ (readTag (windowData (start0 9 50001 4096) 0 armed)).mark = false
      ∧ (¬(lateMark.static.markOffset % 65536 ≤ lateMark.static.roundBias)
        ∧ lateMark.static.markOffset / 65536 + 1 = lateMark.static.frameRows)
      ∧ (check3 plan = true ∧ plan.static.roundBias ≤ 65535
        ∧ (120 + 1) * 65536 ≤ plan.static.roundBias + plan.static.repeatLen) := by
  decide +kernel

/-- RUNNING with frame 3 and a context of lane 0. -/
def inContext (c : LineContext) : State := running plan [frame3] { locked with context := c } locked

/-- A line of slot 1 of lane 0 that expects pixel byte 100 of 200. -/
def lineX : LineExtent := { slot := 1, expected := 8192 + 116, lineEnd := 8192 + 216 }

theorem continues_of {w : FabricWrite} {n : Lane} {s : State} (h : Passes w n s)
    (ho : windowOffset w n s % (s.entry n).winStride ≠ 0) (ha : s.lanes[n].setAside = none) : Continues w n s := by
  refine ⟨h, ho, ?_⟩
  intro a e; rw [ha] at e; cases e

theorem witness_BurstInPlaceAdvancesTheLine :
    (Continues (write0 (8192 + 116) (List.replicate 99 1)) 0 (inContext (.taking lineX 3 22 .none))
        ∧ Quiet (inContext (.taking lineX 3 22 .none))
        ∧ burstSlot (write0 (8192 + 116) (List.replicate 99 1)) 0 (inContext (.taking lineX 3 22 .none)) = lineX.slot
        ∧ windowOffset (write0 (8192 + 116) (List.replicate 99 1)) 0 (inContext (.taking lineX 3 22 .none))
          = lineX.expected)
      ∧ Continues (write0 (8192 + 116) (List.replicate 100 1)) 0 (inContext (.discarding lineX))
      ∧ Quiet (inContext (.discarding lineX))
      ∧ burstSlot (write0 (8192 + 116) (List.replicate 100 1)) 0 (inContext (.discarding lineX)) = lineX.slot
      ∧ windowOffset (write0 (8192 + 116) (List.replicate 100 1)) 0 (inContext (.discarding lineX)) = lineX.expected :=
  ⟨⟨continues_of (by decide +kernel) (by decide +kernel) (by decide +kernel), by decide +kernel, by decide +kernel,
      by decide +kernel⟩,
    continues_of (by decide +kernel) (by decide +kernel) (by decide +kernel), by decide +kernel, by decide +kernel,
    by decide +kernel⟩

theorem witness_ContinuationFaultCutsTheLine :
    (Continues (write0 (8192 + 116) [1]) 0 (inContext .none) ∧ Quiet (inContext .none))
      ∧ (Continues (write0 (8192 + 117) [1]) 0 (inContext (.taking lineX 3 22 .none))
        ∧ windowOffset (write0 (8192 + 117) [1]) 0 (inContext (.taking lineX 3 22 .none)) = lineX.expected + 1
        ∧ Quiet (inContext (.taking lineX 3 22 .none)))
      ∧ (Continues (write0 (16384 + 116) [1]) 0 (inContext (.discarding lineX))
        ∧ burstSlot (write0 (16384 + 116) [1]) 0 (inContext (.discarding lineX)) ≠ lineX.slot
        ∧ Quiet (inContext (.discarding lineX)))
      ∧ (Continues (write0 (8192 + 215) [1]) 0 (inContext (.complete lineX))
        ∧ windowOffset (write0 (8192 + 215) [1]) 0 (inContext (.complete lineX)) = lineX.lineEnd - 1
        ∧ Quiet (inContext (.complete lineX)))
      ∧ NoLineInFlight 0 run1 :=
  ⟨⟨continues_of (by decide +kernel) (by decide +kernel) (by decide +kernel), by decide +kernel⟩,
    ⟨continues_of (by decide +kernel) (by decide +kernel) (by decide +kernel), by decide +kernel, by decide +kernel⟩,
    ⟨continues_of (by decide +kernel) (by decide +kernel) (by decide +kernel), by decide +kernel, by decide +kernel⟩,
    ⟨continues_of (by decide +kernel) (by decide +kernel) (by decide +kernel), by decide +kernel, by decide +kernel⟩,
    noLineInFlight_of_none (by decide +kernel)⟩

/-- RUNNING with slot 1 of lane 0 set aside. -/
def aside (m : SetAsideMode) : State :=
  running plan [frame3] { locked with setAside := some { slot := 1, mode := m } } locked

theorem witness_QuietContinuations :
    (Continues (write0 (8192 + 216) [1]) 0 (inContext (.complete lineX))
        ∧ burstSlot (write0 (8192 + 216) [1]) 0 (inContext (.complete lineX)) = lineX.slot
        ∧ windowOffset (write0 (8192 + 216) [1]) 0 (inContext (.complete lineX)) = lineX.lineEnd
        ∧ Quiet (inContext (.complete lineX)))
      ∧ (Continues (write0 (8192 + 16) [1]) 0 (inContext (.sinking 1)) ∧ Quiet (inContext (.sinking 1)))
      ∧ ∀ m ∈ [SetAsideMode.absorb, .reject],
          Quiet (aside m) ∧ Passes (write0 (8192 + 16) [1]) 0 (aside m)
            ∧ windowOffset (write0 (8192 + 16) [1]) 0 (aside m) % ((aside m).entry 0).winStride ≠ 0
            ∧ (aside m).lanes[(0 : Lane)].setAside
              = some { slot := burstSlot (write0 (8192 + 16) [1]) 0 (aside m), mode := m } :=
  ⟨⟨continues_of (by decide +kernel) (by decide +kernel) (by decide +kernel), by decide +kernel, by decide +kernel,
      by decide +kernel⟩,
    ⟨continues_of (by decide +kernel) (by decide +kernel) (by decide +kernel), by decide +kernel⟩,
    by decide +kernel⟩

/-- Section 5.10.2, burst 1: the line start steers pixel bytes 64 to 239; its first 64 bytes alone steer none. -/
theorem witness_DestinationWrite :
    let x : LineExtent := { slot := 1, expected := 8192 + 16, lineEnd := 8192 + 0xFB0 }
    min (0 + min 64 (x.lineEnd - x.expected)) (64 + 4096) ≤ max 0 64
      ∧ max 0 64 < min (0 + min 65 (x.lineEnd - x.expected)) (64 + 4096) := by decide +kernel

/-- Section 5.10.2: a line of 4000 pixels leaves 160 bytes to pad. -/
theorem witness_PaddingCoversTheSegment :
    159 < (lane0.cropFirst + lane0.keep - max 4000 lane0.cropFirst) * 1
      ∧ 160 = (lane0.cropFirst + lane0.keep - max 4000 lane0.cropFirst) * 1 := by decide

theorem witness_PlacementFollowsKeepMask :
    (plan.static.planeOfPhase (999 % plan.static.phases) = some 1 ∧ plan.static.planes[1].keepMask < 256
        ∧ plan.static.planes[1].keepMask.testBit (999 / plan.static.phases % 8) = false)
      ∧ plan.static.planeOfPhase (1001 % plan.static.phases) = some 1
      ∧ plan.static.planes[1].keepMask.testBit (1001 / plan.static.phases % 8) = true 
      ∧ ({ plan.static with phaseMap := #v[0, 255, 0, 0] } : StaticPlan).planeOfPhase (3 % 2) = none := by decide +kernel

theorem witness_RowCountsAndBoundaries :
    (check3 plan = true ∧ check4 plan = true ∧ frame3.residue ≤ 65535 ∧ 10 < plan.static.frameRows)
      ∧ (-(plan.run.markMaxStep : Int) ≤ 131072 ∧ (131072 : Int) ≤ plan.run.markMaxStep
        ∧ (frame3.residue : Int) + plan.static.repeatLen + 131072 < ((plan.static.frameRows : Int) + 1) * 65536
        ∧ (65536 : Int) ≤ (frame3.residue : Int) + plan.static.repeatLen + 131072
        ∧ (((10 : Nat) : Int) + 1) * 65536 ≤ (frame3.residue : Int) + plan.static.repeatLen + 131072)
      ∧ ((12006 : Count) = 10006 + BitVec.ofInt 32 (plan.static.phases * ((65552384 + plan.static.roundBias) / 65536))
        ∧ ((49152 : Nat) : Int) = (65552384 + plan.static.roundBias) % 65536) := by decide +kernel

theorem witness_MarkOriginHasNoError : plan.static.roundBias ≤ 65535 := by decide

/-- RUNNING with frame 3 of residue 32,768, whose mark is expected exactly at row 120. -/
def markState : State := running plan [{ frame3 with residue := 32768 }] locked locked

/-- RUNNING with MARK_LOST_LIMIT 255 and a mark-lost count. -/
def limited (count : Nat) : State :=
  let s := running { plan with run := { plan.run with markLostLimit := 255 } } [frame3] locked locked
  { s with reg := { s.reg with markLost := count } }

theorem witness_MarksAndLostMarks :
    (markState.frameOf 3).isSome = true ∧ markState.table.openFrames = [] ++ [{ frame3 with residue := 32768 }]
      ∧ (Frame.fixed { frame3 with residue := 32768 } = false ∧ fixed3.fixed = true)
      ∧ (markState.capture.device = .running ∧ markState.livePlan.static.lanes[0].markSource = true
        ∧ frame3.markTaken = false ∧ ¬(markState.livePlan.static.lanes[1].markSource = true))
      ∧ |((124 : Nat) : Int) * 65536 - ((plan.static.markOffset : Int) + 32768 - plan.static.roundBias)|
          = (plan.run.markWindow * 65536 : Int)
      ∧ (plan.run.markWindow * 65536 : Int)
          < |((125 : Nat) : Int) * 65536 - ((plan.static.markOffset : Int) + 32768 - plan.static.roundBias)|
      ∧ (Frame.markTaken { frame3 with markTaken := true } = true ∧ markState.livePlan.run.markLostLimit = 0
        ∧ min 255 (markState.reg.markLost + 1) = 1)
      ∧ ((limited 255).livePlan.run.markLostLimit ≠ 0
        ∧ (limited 255).livePlan.run.markLostLimit ≤ min 255 ((limited 255).reg.markLost + 1)
        ∧ min 255 ((limited 253).reg.markLost + 1) < (limited 253).livePlan.run.markLostLimit) := by decide +kernel

theorem witness_LinesAreAttributed :
    run1.reg.next = some { frame := 4, start := 3000, residue := 16384, correction := 0, clamped := false, fixed := false }
      ∧ run1.table.openFrames = frame3 :: []
      ∧ ((run1.table.openFrames.map fun f => f.rows * run1.livePlan.static.phases).sum = 2000
        ∧ (16384 + run1.livePlan.static.repeatLen) / 65536 * run1.livePlan.static.phases = 2000)
      ∧ [999, 1000, 2999, 3000, 4999, 5000].map (fun pos => ((BitVec.ofNat 32 pos : Count) - frame3.start).toInt)
          = [-1, 0, 1999, 2000, 3999, 4000]
      ∧ (running plan [] locked locked).table.openFrames = []
      ∧ (twoOpen 3000).table.openFrames = [fixed3] ++ frame4 :: [] ∧ (twoOpen 3000).table.openFrames.length < 4
      ∧ frame4.cursors[(0 : Lane)] = .expects 0 ∧ frame3.cursors[(0 : Lane)] = .expects 21
      ∧ (single frame3 3000).table.openFrames = [frame3] := by decide +kernel

/-- RUNNING with four open frames, the oldest in slot 2. -/
def fourOpen : State := running plan [fixed3, fixed3, fixed3, frame4] locked locked

theorem witness_FrameOpens :
    run1.table.openFrames.length < 4
      ∧ ([frame3, frame3, frame3] : List Frame).length < 4
      ∧ findFreeSlot 4 run1.table = some 3 ∧ findFreeSlot 1 { run1.table with lastAllocated := none } = some 0
      ∧ findFreeSlot 32 run1.table = some 3
      ∧ findFreeSlot 4 { run1.table with slots := Vector.replicate 32 .held } = none
      ∧ (fourOpen.table.openFrames = fixed3 :: fixed3 :: [fixed3, frame4] ∧ 2 ≤ [fixed3, frame4].length
        ∧ fourOpen.capture.mode = .continuous ∧ fixed3.slot = some 2 ∧ fourOpen.table.slots[(2 : Fin 32)] = .filling
        ∧ fourOpen.table.sealTimer = .idle)
      ∧ (fourOpen.livePlan.run.laneEnable.getLsbD 0 = true ∧ fourOpen.lanes[(0 : Lane)].state = .locked
        ∧ fixed3.passed.getLsbD 0 = false) := by decide +kernel

theorem witness_Release :
    Commanded (mail 0 0 0 3) held0 ∧ held0.table.slots[(0 : Fin 32)] = .held ∧ held0.table.slots[(31 : Fin 32)] ≠ .held
      ∧ (mail 31 0 0 3).arg0.toNat = (31 : Fin 32).val ∧ 32 ≤ (mail 32 0 0 3).arg0.toNat := by decide +kernel

/-- RUNNING with frames 3 and 4 open, both with a fixed N, frame 3 with a slot or without, and lane 0 awaited in frame 4. -/
def twoFixed (slot : Option (Fin 32)) : State :=
  let s := twoOpen 3000
  { s with table := { s.table with
      openFrames := [{ fixed3 with slot := slot }, { frame4 with fixed := true }]
      slots := if slot = none then s.table.slots.set 2 .free else s.table.slots } }

/-- RUNNING in a capture mode with one frame open. -/
def oneOpen (p : Plan) (f : Frame) (mode : CaptureMode) : State :=
  let s := running p [f] locked locked
  { s with capture := { s.capture with mode := mode } }

theorem witness_Flush :
    (Commanded (mail 0 0 0 5) stopped ∧ Quiet stopped ∧ stopped.capture.device ≠ .dormant
        ∧ stopped.table.openFrames = [])
      ∧ (∀ slot ∈ [some 2, none],
        Commanded (mail 0 0 0 5) (twoFixed slot) ∧ Quiet (twoFixed slot) ∧ (twoFixed slot).capture.device = .running
          ∧ (twoFixed slot).capture.mode = .continuous
          ∧ (twoFixed slot).table.openFrames = { fixed3 with slot := slot } :: { frame4 with fixed := true } :: []
          ∧ (twoFixed slot).livePlan.run.laneEnable.getLsbD 0 = true ∧ (twoFixed slot).lanes[(0 : Lane)].state = .locked
          ∧ frame4.passed.getLsbD 0 = false ∧ (twoFixed slot).table.queue = [])
      ∧ ∀ p ∈ [plan, unpatched], ∀ f ∈ [frame3, fixed3, { fixed3 with slot := none }],
        ∀ mode ∈ [CaptureMode.continuous, .single],
          Commanded (mail 0 0 0 5) (oneOpen p f mode) ∧ Quiet (oneOpen p f mode)
            ∧ (oneOpen p f mode).capture.device = .running ∧ (oneOpen p f mode).capture.mode = mode
            ∧ (oneOpen p f mode).table.openFrames = [f] ∧ (oneOpen p f mode).table.queue = [] :=
  ⟨by decide +kernel, by decide +kernel, by decide +kernel⟩

theorem witness_SealOfOldestFrame :
    beforeStop.table.openFrames.map Frame.number = [1, 2] ∧ beforeStop.table.openFrames.map Frame.slot = [some 1, some 2]
      ∧ beforeStop.lanes[(1 : Lane)].context = .taking { slot := 3, expected := 24600, lineEnd := 24700 } 1 1990 .none
      ∧ beforeStop.lanes[(0 : Lane)].context.takingInto 1 = false
      ∧ beforeStop.livePlan.run.patchEnable = true
      ∧ (frame3.closeAll plan).runs ≠ [] := by decide +kernel

/-- A skip entry for frames 6 and 7. -/
def skip67 : SkipEntry :=
  { first := 6, count := 2, markTaken := false, clamped := false, overflow := false, missing := 3, damaged := 0,
    delivered := 1, start := 0, correction := 0, firstTime := none }

theorem witness_SlotlessFramesMerge :
    skip67.first + BitVec.ofNat 32 skip67.count = Frame.number { frame3 with number := 8 }
      ∧ skip67.count ≠ 4294967295
      ∧ skip67.first + BitVec.ofNat 32 skip67.count ≠ Frame.number { frame3 with number := 9 }
      ∧ SkipEntry.count { skip67 with count := 4294967295 } = 4294967295 := by decide +kernel

/-- The frame after the one that found the count at 2^32 − 1 merges too (log 28). -/
theorem test_heldSkipTakesIn :
    appendSkip false { frame3 with number := 6 } [.skip { skip67 with count := 4294967295 }]
      = [.skip (SkipEntry.takeIn { frame3 with number := 6 } { skip67 with count := 4294967295 })] := by decide +kernel

/-- The timer runs for frame 3. -/
def expiring (s : State) : State := { s with table := { s.table with sealTimer := .running 3 1 } }

theorem no_held {s : State} {P : HeldRequest → Prop} (h : s.held = none) : ∀ x, s.held = some x → P x := by
  intro x hx; rw [h] at hx; cases hx

theorem only_held {s : State} {x : HeldRequest} {P : HeldRequest → Prop} (h : s.held = some x) (p : P x) :
    ∀ y, s.held = some y → P y := by
  intro y hy; rw [h] at hy; cases hy; exact p

/-- The write that `heldComplete` holds. -/
def heldSteer : HeldRequest :=
  { request := .write burst16, lane := some 0,
    derived := [{ kind := .steer 3, req := .write 0x1409F4EB0 0 [1] },
                { kind := .steer 3, req := .write 0x1409F4F60 0 [2] }] }

/-- The line of burst 16 is complete and its writes still wait (section 5.10.2, the last paragraph), in frame 3 of two. -/
def heldComplete : State :=
  { expiring (twoOpen 3000) with
    held := some heldSteer
    lanes := lanesOf { locked with context := .complete { lineX with expected := 8192 + 216 } } locked }

theorem witness_SealTimerExpires :
    (twoOpen 3000).table.sealTimer = .idle
      ∧ (∀ s ∈ [expiring (twoOpen 3000), heldComplete],
          Quiet s ∧ s.table.sealTimer = .running fixed3.number 1 ∧ s.offered = []
            ∧ s.table.openFrames = fixed3 :: frame4 :: [] ∧ s.capture.mode = .continuous ∧ frame4.fixed = false
            ∧ (∀ g ∈ frame4 :: [], g.number ≠ fixed3.number) ∧ fixed3.slot = some 2)
      ∧ (∀ s ∈ [expiring (single fixed3 3000)],
          Quiet s ∧ s.table.sealTimer = .running fixed3.number 1 ∧ s.offered = [] ∧ s.table.openFrames = [fixed3]
            ∧ fixed3.fixed = true ∧ fixed3.slot = some 2 ∧ s.capture.device = .running ∧ s.capture.mode = .single)
      ∧ heldComplete.completedHeld 3 0 = true ∧ heldComplete.heldWithout 3 = none := by decide +kernel

/-- A held read, and a held burst with a sink write behind a write into frame 3: both stay held after the expiry. -/
def heldRead : HeldRequest :=
  { request := .read 0x1000 4 7, lane := none, derived := [{ kind := .forward, req := .read 0x1000 4 7 }] }
def heldSink : HeldRequest :=
  { heldSteer with derived := heldSteer.derived ++ [{ kind := .sink, req := .write 0x02002000 0 [3] }] }

def holdingAtExpiry (h : HeldRequest) : State :=
  { expiring (twoOpen 3000) with held := some h, offered := [.read 0x2000 4 8] }

/-- The port at the expiry, and the queues, in which no entry has a slot. -/
theorem witness_SealTimerExpires_port :
    (∀ e, .slot e ∈ (expiring (twoOpen 3000)).table.queue → fixed3.slot ≠ some e.slot)
      ∧ (∀ e, .slot e ∈ (expiring (single fixed3 3000)).table.queue → e.slot ≠ 2)
      ∧ (∀ h, (expiring (twoOpen 3000)).held = some h → h.derived ≠ [])
      ∧ (∀ h, heldComplete.held = some h → h.derived ≠ [])
      ∧ (∀ h, (holdingAtExpiry heldRead).held = some h → h.derived ≠ [])
      ∧ (∀ h, (holdingAtExpiry heldSink).held = some h → h.derived ≠ [])
      ∧ (Quiet (holdingAtExpiry heldRead) ∧ Quiet (holdingAtExpiry heldSink))
      ∧ (holdingAtExpiry heldRead).heldWithout fixed3.number = some heldRead
      ∧ (holdingAtExpiry heldSink).heldWithout fixed3.number
          = some { heldSink with derived := [{ kind := .sink, req := .write 0x02002000 0 [3] }] } :=
  ⟨no_entry rfl, no_entry rfl, no_held rfl, only_held rfl nofun, only_held rfl nofun, only_held rfl nofun,
    by decide +kernel, by decide +kernel, by decide +kernel⟩

/-- `patching` before the last two writes of position 0. -/
def patchingEarly : State :=
  { patching with
    patch := .active { slot := 0, runIndex := 0, posIndex := 0, plane := 0, byteOffset := 3584,
                       waiting := some (.write 0x100000E00 0 (List.replicate 256 0)) } }

/-- `patching` before the last write of its first position, with these runs in its list. -/
def withRuns (runs : List Run) : State :=
  { patching with
    table := { patching.table with
      queue := patching.table.queue.map (onSlotEntry 0 fun e => { e with patchList := some runs }) } }
def patchingLast : State := withRuns [{ lane := 0, first := 0, count := 1 }]

/-- `patchingLast` in a drain, with a second run of the list in `patchingNext`. -/
def patchingDrain (c : DrainCause) (p : Option PendingCommand) : State :=
  { patchingLast with
    capture := { patchingLast.capture with device := .draining, drainCause := c }
    plan := { patchingLast.plan with pendingCommand := p } }
def patchingNext : State := withRuns [{ lane := 0, first := 0, count := 1 }, { lane := 1, first := 1, count := 8 }]

theorem witness_FillWritesAreTaken :
    (Quiet patchingEarly ∧ fabricWaiting patchingEarly = false ∧ patchingEarly.report.presented = none
        ∧ (patchListOf 0 patchingEarly.table.queue)[0]? = some { lane := 0, first := 0, count := 241 }
        ∧ fillTarget patchingEarly.livePlan.static 0 0 (0 + 0) = some (0, 0x100000000)
        ∧ 3584 + 256 < (patchingEarly.entry 0).keep * patchingEarly.livePlan.static.pixelBytes)
      ∧ ∀ s ∈ [patchingDrain .stop (some (.stop 4)), patchingDrain .singleDone none],
          Quiet s ∧ fabricWaiting s = false ∧ s.report.presented = none ∧ s.table.openFrames = []
            ∧ s.capture.device = .draining := by decide +kernel

/-- The last write: of a list of one run, and of one whose second run is of a position that keeps no row. -/
theorem witness_FillWritesAreTaken_last :
    ∀ s ∈ [patchingLast, withRuns [{ lane := 0, first := 0, count := 1 }, { lane := 1, first := 3, count := 1 }]],
      (Quiet s ∧ fabricWaiting s = false ∧ s.report.presented = none
        ∧ (patchListOf 0 s.table.queue)[0]? = some { lane := 0, first := 0, count := 1 }
        ∧ fillTarget s.livePlan.static 0 0 (0 + 0) = some (0, 0x100000000)
        ∧ s.livePlan.static.lanes[(0 : Lane)].keep * s.livePlan.static.pixelBytes ≤ 3840 + 256)
      ∧ (∀ r ∈ (patchListOf 0 s.table.queue).drop 1, ∀ i < r.count,
          fillTarget s.livePlan.static 0 r.lane (r.first + i) = none)
      ∧ (∀ k : Fin 32, k ≠ 0 → s.table.slots[k] ≠ .patching) := by decide +kernel

/-- The advance: to the next position that fills something, and to the first such position of a later run. -/
theorem witness_FillWritesAreTaken_advance :
    (∀ s ∈ [patching, patchingNext], Quiet s ∧ fabricWaiting s = false ∧ s.report.presented = none
        ∧ (s.entry 0).keep * s.livePlan.static.pixelBytes = 3840 + 256)
      ∧ ((patchListOf 0 patching.table.queue)[0]? = some { lane := 0, first := 0, count := 241 }
        ∧ Run.target plan.static 0 { lane := 0, first := 0, count := 241 } 1 = some (1, 0x140000000))
      ∧ (patchListOf 0 patchingNext.table.queue = [{ lane := 0, first := 0, count := 1 }, { lane := 1, first := 1, count := 8 }]
        ∧ (∀ i, 0 < i → ¬i < 1)
        ∧ Run.target plan.static 0 { lane := 1, first := 1, count := 8 } 0 = some (1, 0x140001000)) := by
  refine ⟨by decide +kernel, by decide +kernel, by decide +kernel, fun i h => by omega, by decide +kernel⟩

/-- `patchingLast` with a second frame whose slot is PATCHING behind it, and the same entries with an IDLE context. -/
def secondEntry (runs : List Run) : SlotEntry :=
  { number := 1, slot := 1, status := .incomplete, rows := 1000, start := 51760, correction := 0, clamped := false,
    missing := 1, damaged := 0, delivered := 3, firstTime := none, markTaken := true, overflow := false, filled := false,
    abandoned := false, patchList := some runs }
def patchingTwo (runs : List Run) : State :=
  { patchingLast with table := { patchingLast.table with
      queue := patchingLast.table.queue ++ [.slot (secondEntry runs)], slots := patchingLast.table.slots.set 1 .patching } }
def takeable (runs : List Run) : State :=
  { patchingTwo runs with patch := .idle, table := { (patchingTwo runs).table with
      slots := (patchingTwo runs).table.slots.set 0 .ready } }

/-- The take-up: of a frame with a position that fills something, and of one without. -/
theorem witness_FillWritesAreTaken_takeUp :
    (∀ runs ∈ [[Run.mk 1 1 1], [Run.mk 1 3 1]],
      Quiet (patchingTwo runs) ∧ fabricWaiting (patchingTwo runs) = false ∧ (patchingTwo runs).report.presented = none
        ∧ (patchListOf 0 (patchingTwo runs).table.queue)[0]? = some { lane := 0, first := 0, count := 1 }
        ∧ (patchListOf 0 (patchingTwo runs).table.queue).drop 1 = []
        ∧ (takeable runs).patch = .idle ∧ (takeable runs).table.slots[(1 : Fin 32)] = .patching
        ∧ (takeable runs).table.slots[(0 : Fin 32)] ≠ .patching
        ∧ (takeable runs).table.queue.drop 1 = [.slot (secondEntry runs)])
      ∧ ¬NothingToFill plan.static 1 [{ lane := 1, first := 1, count := 1 }]
      ∧ NothingToFill plan.static 1 [{ lane := 1, first := 3, count := 1 }]
      ∧ (∀ x, QueueEntry.slot x ∈ stopped.table.queue → stopped.table.slots[x.slot] ≠ .patching)
      ∧ patching.patch ≠ .idle :=
  ⟨by decide +kernel, by decide +kernel, by decide +kernel, no_entry rfl, nofun⟩

theorem witness_Latches :
    Commanded (mail 0 0 0 6) (raise 20 (.seqGap 7 1) stopped)
      ∧ (raise 20 (.seqGap 7 1) stopped).report.latches[(20 : Fin 52)].standing ≠ .clear
      ∧ Commanded (mail 0 0 0 6) stopped ∧ ∀ k : Fin 52, stopped.report.latches[k].standing = .clear := by
  decide +kernel

/-- A state notice, an acknowledge word and a latch that is due. -/
def notice0 : StateNotice := { device := .stopped, cause := .stop, generation := 7, origin := none }
def ack0 : AckWord := { tag := 1, cls := 0x50, detail := 0, device := .stopped }
def due20 : State := raise 20 (.seqGap 7 1) stopped
def readyHead : State :=
  { patching with
    patch := .idle
    table := { patching.table with slots := patching.table.slots.set 0 .ready } }

theorem witness_ReportUnitChooses :
    noticed.report.presented ≠ none
      ∧ (let r := ({ stopped with report := { stopped.report with producerOwed := true } } : State).report
        r.presented = none ∧ r.producerOwed = true)
      ∧ (let r := ({ stopped with report := { stopped.report with ackWaiting := some ack0 } } : State).report
        r.presented = none ∧ r.producerOwed = false ∧ r.ackWaiting = some ack0)
      ∧ (let r := ({ stopped with report := { stopped.report with snapshotWrites := [(0x02001200, [1])] } } : State).report
        r.presented = none ∧ r.producerOwed = false ∧ r.ackWaiting = none ∧ r.snapshotWrites = (0x02001200, [1]) :: [])
      ∧ (stopped.report.unconsumed < plan.static.ringEntries
        ∧ ¬((ring 46 30 .idle).report.unconsumed < plan.static.ringEntries)
        ∧ (ring 45 30 .idle).report.unconsumed < plan.static.ringEntries)
      ∧ (due20.report.latches[(20 : Fin 52)].standing = .due ∧ due20.report.latches[(20 : Fin 52)].presented = false
        ∧ ∀ j : Fin 52, j < 20 → due20.report.latches[j].standing ≠ .due)
      ∧ (readyHead.table.queue.head?.any fun e => match e with
          | .slot x => decide (readyHead.table.slots[x.slot] = .ready)
          | .skip _ => true) = true
      ∧ stopped.table.queue = []
      ∧ ∀ k : Fin 52, readyHead.report.latches[k].standing ≠ .due := by decide +kernel

/-- The FRAME record of a READY head is presented. -/
def frameRecord : State := present readyHead

theorem witness_RecordsAreTaken :
    (frameRecord.report.presented.map ReportWrite.kind = some (.record .frame) ∧ fabricWaiting frameRecord = false
        ∧ frameRecord.plan.live = some plan ∧ frameRecord.table.queue.length = 1)
      ∧ (noticed.report.presented.map ReportWrite.kind = some (.record (.error 20 false)) ∧ fabricWaiting noticed = false)
      ∧ (let s := present { stopped with report := { stopped.report with stateNotice := some notice0 } }
        s.report.presented.map ReportWrite.kind = some (.record .state) ∧ fabricWaiting s = false
          ∧ s.report.noticePresented = true)
      ∧ let s := present { stopped with table := { stopped.table with queue := [.skip skip67] } }
        s.report.presented.map ReportWrite.kind = some (.record .frame) ∧ s.table.queue = .skip skip67 :: []
          ∧ fabricWaiting s = false := by
  decide +kernel

/-- A producer word, an acknowledge word and the first snapshot write, presented. -/
def wordPresented : State := present { stopped with report := { stopped.report with producerOwed := true } }
def ackPresented : State := present { stopped with report := { stopped.report with ackWaiting := some ack0 } }
def firstSnapshotWrite : State := { after (.snapshot (mail 0 0 0 0x14)) stopped with held := none }

theorem witness_ReportWordsAndSnapshotWrites :
    (wordPresented.report.presented.map ReportWrite.kind = some .producerWord ∧ fabricWaiting wordPresented = false)
      ∧ (ackPresented.report.presented.map ReportWrite.kind = some .ackWord ∧ fabricWaiting ackPresented = false)
      ∧ (firstSnapshotWrite.report.presented.map ReportWrite.kind = some .snapshotWrite
        ∧ firstSnapshotWrite.report.snapshotWrites ≠ [] ∧ fabricWaiting firstSnapshotWrite = false)
      ∧ lastSnapshotWrite.report.presented = some { kind := .snapshotWrite, addr := 0x02001200, data := [1] }
      ∧ lastSnapshotWrite.report.snapshotWrites = [] ∧ fabricWaiting lastSnapshotWrite = false
      ∧ lastSnapshotWrite.plan.pendingCommand = some (.snapshot 0x14) := by decide +kernel

theorem witness_ConsumerWordMovesTheConsumer :
    let s := ring 33 31 .expired
    s.portFree ∧ s.plan.shadow.wf = true ∧ s.plan.live = some plan
      ∧ (s.report.producer - s.report.consumer).toNat = 2
      ∧ [30, 31, 32, 33, 34].map (fun v => ((BitVec.ofNat 32 v : Count) - s.report.consumer).toInt) = [-1, 0, 1, 2, 3] := by
  decide +kernel

theorem witness_AttentionTimerExpires :
    (∀ r, (ring 32 30 .expired).report.attnTimer ≠ .running r)
      ∧ (ring 32 30 (.running 1)).report.attnTimer = .running 1 ∧ (ring 32 30 (.running 1)).plan.live = some plan :=
  ⟨nofun, rfl, rfl⟩

theorem witness_FormatsHaveTheirLengths :
    (raise 20 (.seqGap 7 1) stopped).report.latches[(20 : Fin 52)].detail = some (.seqGap 7 1)
      ∧ 16 ≤ (tagBytes 101 1021 100 true).length := by decide +kernel

/-- RUNNING with a SNAPSHOT pending, STOPPED behind a tail skip entry, and the drain of a single capture. -/
def snapshotPending : State := { lastSnapshotWrite with held := none }
def tailSkip : State := { stopped with table := { stopped.table with queue := [.skip skip67] } }
def draining : State :=
  let s := under plan .draining
  { s with
    capture := { s.capture with drainCause := .singleDone }
    table := { s.table with queue := patching.table.queue, slots := s.table.slots.set 0 .patching }
    patch := patching.patch }

theorem witness_CommandsAreRefused :
    (Commanded (mail 0 0 0 8) dormant ∧ (0 : Byte).toNat < 1 ∧ 9 < (10 : Byte).toNat)
      ∧ (Commanded (mail 0 0 0 8) snapshotPending ∧ snapshotPending.plan.pendingCommand ≠ none)
      ∧ (Commanded (mail 0 0 0 8) tailSkip ∧ tailSkip.table.queue = [] ++ [.skip skip67])
      ∧ (Commanded (mail 0 0 0 8) run1 ∧ run1.plan.pendingCommand = none ∧ tailIsSkip run1.table = false
        ∧ run1.capture.device ≠ .stopped)
      ∧ (dormant.plan.pendingCommand = none ∧ tailIsSkip dormant.table = false ∧ dormant.capture.device = .dormant)
      ∧ Commanded (mail 0 0 0 8) draining ∧ draining.plan.pendingCommand = none ∧ tailIsSkip draining.table = false
      ∧ draining.capture.device = .draining ∧ draining.capture.drainCause = .singleDone := by decide +kernel

theorem witness_GoodCommitTakesThePlan :
    (Commanded (mail 0 0 0 1) dormant ∧ dormant.plan.pendingCommand = none ∧ dormant.plan.live = none
        ∧ dormant.capture.device = .dormant
        ∧ failedCheck dormant (readPlan (dormant.withMailbox 0x01 (mail 0 0 0 1)).plan.shadow) = none)
      ∧ ∀ d ∈ [DeviceState.stopped, .running],
          let s := paged (page.write 0x11 2) (under plan d)
          let p := readPlan (s.withMailbox 0x01 (mail 0 0 0 1)).plan.shadow
          Commanded (mail 0 0 0 1) s ∧ s.plan.pendingCommand = none ∧ s.capture.device ≠ .draining
            ∧ s.plan.live = some plan ∧ p.static = plan.static ∧ failedCheck s p = none ∧ p ≠ plan := by
  decide +kernel

/-- COMMITs in RUNNING: LANE_ENABLE without lane 1, with no seal and with a seal to follow; a smaller MARK_MAX_STEP. -/
theorem witness_GoodCommitTakesThePlan_running :
    (∀ x ∈ [(page.write 0x20 1, run1), (page.write 0x20 1, running plan [{ fixed3 with passed := 1 }] locked locked),
            (page.write 0x16 1, run1)],
      let s := paged x.1 x.2
      let p := readPlan (s.withMailbox 0x01 (mail 0 0 0 1)).plan.shadow
      Commanded (mail 0 0 0 1) s ∧ s.plan.pendingCommand = none ∧ s.capture.device = .running ∧ s.plan.live = some plan
        ∧ p.static = plan.static ∧ failedCheck s p = none ∧ p ≠ plan)
      ∧ (frame3.fixed = false ∧ plan.run.laneEnable.getLsbD 1 = true ∧ (1#8).getLsbD 1 = false)
      ∧ (fixed3.slot = some 2 ∧ fixed3.fixed = true
        ∧ ∀ n : Lane, plan.run.laneEnable.getLsbD n.val = true → (1#8).getLsbD n.val = true →
            (Frame.passed { fixed3 with passed := 1 }).getLsbD n.val = true) := by decide +kernel

theorem witness_CommitsThatTakeNothing :
    (let s := paged (page.write 0x00 5) (State.resetWith 2)
      let p := readPlan (s.withMailbox 0x01 (mail 0 0 0 1)).plan.shadow
      Commanded (mail 0 0 0 1) s ∧ s.plan.pendingCommand = none ∧ s.capture.device ≠ .draining
        ∧ failedCheck s p = some 1 ∧ s.plan.live = none)
      ∧ (let s := paged (page.write 0x21 0) (under plan .running)
        let p := readPlan (s.withMailbox 0x01 (mail 0 0 0 1)).plan.shadow
        Commanded (mail 0 0 0 1) s ∧ s.plan.live = some plan ∧ s.capture.device = .running ∧ p.static ≠ plan.static)
      ∧ (let s := paged (page.write 0x20 0x43) (under plan .running)
        let p := readPlan (s.withMailbox 0x01 (mail 0 0 0 1)).plan.shadow
        Commanded (mail 0 0 0 1) s ∧ s.plan.live = some plan ∧ p.static = plan.static ∧ failedCheck s p = some 11)
      ∧ let s := paged page (under plan .running)
        let p := readPlan (s.withMailbox 0x01 (mail 0 0 0 1)).plan.shadow
        Commanded (mail 0 0 0 1) s ∧ s.plan.live = some p ∧ failedCheck s p = none := by decide +kernel

theorem witness_Inject :
    Commanded (mail 1 5 8 7) run1 ∧ run1.capture.device ≠ .dormant
      ∧ ((mail 1 5 8 7).arg0.toNat = (1 : Lane).val ∧ (run1.entry 1).winLines ≠ 0 ∧ (mail 1 5 8 7).arg1.toNat = 4 + 1
        ∧ 1 ≤ (mail 1 5 8 7).arg2.toNat ∧ (mail 1 5 8 7).arg2.toNat ≤ 8 ∧ 1 ≤ (mail 0 1 1 7).arg2.toNat)
      ∧ 8 ≤ (mail 8 1 1 7).arg0.toNat ∧ (mail 0 0 1 7).arg1.toNat < 1 ∧ 5 < (mail 0 6 1 7).arg1.toNat
      ∧ (mail 0 1 0 7).arg2.toNat < 1 ∧ 8 < (mail 0 1 9 7).arg2.toNat
      ∧ (mail 2 1 1 7).arg0.toNat = (2 : Lane).val ∧ (run1.entry 2).winLines = 0 := by decide +kernel

theorem witness_SnapshotCaptures :
    Commanded (mail 0 0 0 0x14) run1 ∧ run1.plan.pendingCommand = none := by decide +kernel

theorem witness_StartArms :
    Commanded (mail 1 1 0 2) stopped ∧ stopped.plan.pendingCommand = none ∧ tailIsSkip stopped.table = false
      ∧ stopped.capture.device = .stopped ∧ (mail 1 1 0 2).arg0.toNat ≤ 1 ∧ (mail 1 1 0 2).arg1.toNat ≤ 1
      ∧ 2 ≤ (mail 2 0 0 2).arg0.toNat ∧ 2 ≤ (mail 0 2 0 2).arg1.toNat := by decide +kernel

/-- `beforeStop` with a slotless frame behind. -/
def beforeStopSlotless : State :=
  { beforeStop with
    table := { beforeStop.table with
      openFrames := beforeStop.table.openFrames.map fun f => if f.number = 2 then { f with slot := none } else f } }

theorem witness_Stop :
    (Commanded (mail 0 0 0 4) stopped ∧ stopped.plan.pendingCommand = none ∧ stopped.capture.device = .stopped)
      ∧ (Commanded (mail 0 0 0 4) armed ∧ armed.plan.pendingCommand = none ∧ armed.capture.device = .armed)
      ∧ (∀ s ∈ [beforeStop, beforeStopSlotless],
          Commanded (mail 0 0 0 4) s ∧ s.plan.pendingCommand = none ∧ s.capture.device = .running)
      ∧ beforeStop.table.openFrames.map Frame.slot = [some 1, some 2]
      ∧ beforeStopSlotless.table.openFrames.map Frame.slot = [some 1, none] := by decide +kernel

theorem witness_Abort :
    (Commanded (mail 0 0 0 4) stopped ∧ stopped.plan.pendingCommand = none ∧ stopped.capture.device = .stopped
        ∧ ∀ n : Lane, stopped.lanes[n].injection = none)
      ∧ (({ stopped with lanes := (injecting .drop).lanes } : State).lanes[(0 : Lane)].injection ≠ none)
      ∧ (∀ s ∈ [beforeStop, beforeStopSlotless, patching], Commanded (mail 0 0 0 4) s ∧ s.capture.device = .running)
      ∧ (patching.table.queue.map QueueEntry.slotOf = [some 0] ∧ patching.table.slots[(0 : Fin 32)] = .patching
        ∧ patching.table.openFrames = [])
      ∧ Commanded (mail 0 0 0 4) draining ∧ draining.plan.pendingCommand = none
      ∧ draining.capture.device = .draining ∧ draining.capture.drainCause = .singleDone := by decide +kernel

/-! ### Witnesses of the invariants: `run1` meets each, and a step from it answers a next state -/

/-- `run1` with a line start waiting. -/
def run2 : State := { run1 with pending := [.lineStart (start0 101 1021 100)] }

theorem next_of_goesOn {c : Instr} {s : State} (h : goesOn c s = true) : exec c s = .next (after c s) := by
  unfold goesOn at h
  unfold after
  split at h <;> simp_all

theorem run2_steps : ∃ t, step run2 = .next t :=
  ⟨after (.lineStart (start0 101 1021 100)) run1,
    (next_of_goesOn (by decide +kernel) : exec (.lineStart (start0 101 1021 100)) run1 = _)⟩

theorem run2_capture : CaptureInv run2 := by unfold CaptureInv; decide +kernel

theorem witness_StepKeepsTraffic : ShadowInv run2 ∧ PortInv run2 ∧ ∃ t, step run2 = .next t := by
  refine ⟨by unfold ShadowInv; decide +kernel, ⟨fun _ => rfl, ?_⟩, run2_steps⟩
  intro h e; cases e

theorem witness_StepKeepsCapture : CaptureInv run2 ∧ ∃ t, step run2 = .next t := ⟨run2_capture, run2_steps⟩

theorem witness_StepKeepsFrameChain : ChainInv run2 ∧ ∃ t, step run2 = .next t := by
  refine ⟨⟨run2_capture, by decide +kernel, trivial, ?_⟩, run2_steps⟩
  intro f h
  cases h
  exact ⟨_, rfl, by decide +kernel, by decide +kernel⟩

theorem witness_StepKeepsRows : RowsInv run2 ∧ ∃ t, step run2 = .next t := by
  refine ⟨⟨run2_capture, ?_, ?_, ?_⟩, run2_steps⟩
  · intro p h; cases h; decide +kernel
  · intro b h; cases h; decide
  · intro f h
    obtain rfl := List.mem_singleton.mp h
    refine ⟨by decide, by decide, by decide, ?_⟩
    intro r e; cases e; decide

theorem witness_StepKeepsRanges : CorrectionInv run2 ∧ CountsInv run2 ∧ ∃ t, step run2 = .next t :=
  ⟨show _ ∧ _ by decide +kernel, by unfold CountsInv; decide +kernel, run2_steps⟩

theorem witness_StepKeepsRing : RingInv run2 ∧ AttnInv run2 ∧ ∃ t, step run2 = .next t := by
  refine ⟨?_, ⟨nofun, ?_⟩, run2_steps⟩
  · intro p h; cases h; decide +kernel
  · intro p h; cases h; decide +kernel

/-- `run2` with a skip entry of frames 1 and 2 at the tail of the seal queue, before frame 3. -/
def run2Skip : State := { run2 with table := { run2.table with queue := [.skip { skip67 with first := 1 }] } }

theorem witness_StepKeepsSlots :
    (SlotInv run2 ∧ ∃ t, step run2 = .next t)
      ∧ SlotInv run2Skip ∧ QueueInv run2Skip ∧ ∃ t, step run2Skip = .next t := by
  refine ⟨⟨⟨by decide +kernel, by decide +kernel, by decide +kernel, by decide +kernel, nofun, by decide +kernel⟩,
    run2_steps⟩, ⟨by decide +kernel, by decide +kernel, by decide +kernel, by decide +kernel, nofun, by decide +kernel⟩,
    ⟨⟨by unfold CaptureInv; decide +kernel, by decide +kernel, trivial, ?_⟩, ?_, ?_⟩, _, rfl⟩
  · intro f h; cases h
    exact ⟨_, rfl, by decide +kernel, by decide +kernel⟩
  · intro i x y _ h
    simp [run2Skip] at h
  · intro x h; cases h
    refine ⟨by decide +kernel, ?_⟩
    intro number h; cases h
    exact .inr (by decide +kernel)

theorem witness_StepKeepsChoice : (ChoiceInv run2 ∧ SlotInv run2 ∧ Quiet run2) ∧ ∃ t, step run2 = .next t :=
  ⟨⟨by unfold ChoiceInv; decide +kernel, witness_StepKeepsSlots.1.1, by decide +kernel⟩, run2_steps⟩

end Sys2Proof.Tests
end

section
/-! The traffic path across one step (R2, R154): the plan shadow stays within the plan page, and the fabric port holds a
request while one waits. -/

namespace Sys2Proof.Machine

/-! ### The plan shadow within the plan page -/

/-- A memory in canonical form that lists offsets of the plan page only. -/
def Memory.InPage (m : Memory) : Prop := m.wf = true ∧ ∀ c ∈ m, c.1 < Config.pageBytes

theorem Memory.inPage_nil : Memory.InPage [] := ⟨rfl, nofun⟩

/-- A write of one byte lists no address beyond that byte's. -/
theorem Memory.mem_write {m : Memory} {a : Nat} {v : Byte} {c : Host.Cell} (h : c ∈ m.write a v) :
    c ∈ m ∨ c.1 = a := by
  fun_induction Memory.write m a v with
  | case1 => exact .inl h
  | case2 => rw [List.mem_singleton.mp h]; exact .inr rfl
  | case3 => exact .inl h
  | case4 =>
    rcases List.mem_cons.mp h with rfl | h
    · exact .inr rfl
    · exact .inl h
  | case5 => exact .inl (List.mem_cons_of_mem _ h)
  | case6 =>
    rcases List.mem_cons.mp h with rfl | h
    · exact .inr rfl
    · exact .inl (List.mem_cons_of_mem _ h)
  | case7 k b rest a v _ _ ih =>
    rcases List.mem_cons.mp h with rfl | h
    · exact .inl List.mem_cons_self
    · exact (ih h).imp_left (List.mem_cons_of_mem _)

theorem Memory.InPage.write {m : Memory} (h : m.InPage) {a : Nat} (v : Byte) (ha : a < Config.pageBytes) :
    (m.write a v).InPage := by
  refine ⟨Memory.write_wf a v h.1, fun c hc => ?_⟩
  rcases Memory.mem_write hc with hm | he
  · exact h.2 c hm
  · rwa [he]

theorem Memory.InPage.writeBytes {m : Memory} (h : m.InPage) (vs : List Byte) {a : Nat}
    (ha : a + vs.length ≤ Config.pageBytes) : (m.writeBytes a vs).InPage := by
  induction vs generalizing m a with
  | nil => exact h
  | cons v vs ih =>
    rw [List.length_cons] at ha
    exact ih (h.write v (by omega)) (by omega)

/-! ### Requests that R1 admits -/

theorem lengthOk_iff (n : Nat) : lengthOk n = true ↔ 1 ≤ n ∧ n ≤ 256 := by
  simp only [lengthOk, Config.maxBurst, Bool.and_eq_true]
  exact and_congr decide_eq_true_iff decide_eq_true_iff

theorem FabricWrite.ok_iff (w : FabricWrite) :
    w.ok = true ↔ (1 ≤ w.data.length ∧ w.data.length ≤ 256) ∧ w.addr.toNat % 4096 + w.data.length ≤ 4096 := by
  simp only [FabricWrite.ok, Bool.and_eq_true, lengthOk_iff, Config.pageBytes]
  exact and_congr_right' decide_eq_true_iff

/-- PLAN_BASE is a multiple of a page's size (R4). -/
theorem planBase_mod (s : State) : s.planBase % 4096 = 0 := by
  unfold State.planBase Config.planUnit; omega

theorem mailboxWrite_ok (s : State) (code : Byte) (m : Mailbox) : (mailboxWrite s code m).ok = true := by
  have := planBase_mod s
  rw [FabricWrite.ok_iff, mailbox_length, mailbox_addr]
  omega

theorem consumerWrite_ok (s : State) (reqTag : Byte) (value : Count) : (consumerWrite s reqTag value).ok = true := by
  have hb := planBase_mod s
  have hl := planBase_lt s
  rw [FabricWrite.ok_iff]
  simp only [consumerWrite, leBytes_length, offConsumer, BitVec.toNat_ofNat]
  omega

/-! ### Taking and serving requests -/

theorem classify_plan_iff {s : State} {a : Nat} :
    classify s a = .plan ↔ s.planBase ≤ a ∧ a < s.planBase + 4096 := by
  unfold classify
  split
  · rename_i hp
    exact iff_of_true rfl hp
  · rename_i hp
    split <;> exact iff_of_false nofun hp

/-- A PLAN write that R1 admits lies within the plan page, so the shadow stays within it (R1, R154). -/
theorem planWriteEffect_inPage {w : FabricWrite} {s : State} (hw : w.ok = true)
    (hc : s.planBase ≤ w.addr.toNat ∧ w.addr.toNat < s.planBase + 4096) (h : s.plan.shadow.InPage) :
    (planWriteEffect w s).plan.shadow.InPage := by
  have hp := (FabricWrite.ok_iff w).mp hw
  have hb := planBase_mod s
  unfold planWriteEffect
  rw [(present_chosen _).path.shadow, (planCommand_path _ _ _).shadow, (planConsumer_path _ _ _).shadow,
    copyToShadow_shadow]
  exact h.writeBytes _ (by unfold Config.pageBytes; omega)

theorem hold_plan (r : FabricRequest) (lane : Option Lane) (ds : List Derived) (s : State) :
    (hold r lane ds s).plan = s.plan := by
  cases ds <;> rfl

theorem landingEffect_shadow (n : Lane) (w : FabricWrite) (s : State) :
    (landingEffect n w s).plan.shadow = s.plan.shadow := by
  unfold landingEffect
  rw [(present_chosen _).path.shadow, hold_plan, (settle_inner _).shadow, (landingBurst_inner _ _ _ _ _ _).shadow]

theorem takeRequest_inPage {r : FabricRequest} {s : State} (hr : r.ok = true) (h : s.plan.shadow.InPage) :
    (takeRequest r s).plan.shadow.InPage := by
  cases r with
  | read a len tag =>
    show (hold _ _ _ s).plan.shadow.InPage
    rwa [hold_plan]
  | write w =>
    show (takeWrite w s).plan.shadow.InPage
    unfold takeWrite
    cases hc : classify s w.addr.toNat with
    | plan => exact planWriteEffect_inPage (s := hold _ _ _ s) hr (classify_plan_iff.mp hc) h
    | landing n => rwa [landingEffect_shadow]
    | pass => rwa [hold_plan]

theorem serveList_shadowInv {l : List FabricRequest} {s : State} (hl : ∀ r ∈ l, r.ok = true)
    (h : s.plan.shadow.InPage) : ShadowInv (serveList l s) := by
  induction l generalizing s with
  | nil => exact ⟨h.1, h.2, nofun⟩
  | cons r rest ih =>
    unfold serveList
    split
    · exact ⟨h.1, h.2, hl⟩
    · exact ih (fun x hx => hl x (List.mem_cons_of_mem _ hx)) (takeRequest_inPage (hl r List.mem_cons_self) h)

/-- What the port holds has derived requests (R2). -/
def HoldsDerived (s : State) : Prop := ∀ h, s.held = some h → h.derived ≠ []

/-- Serving leaves a request waiting only behind a held one, whatever was offered before. -/
theorem serveList_portInv {l : List FabricRequest} {s : State} (h : HoldsDerived s) : PortInv (serveList l s) := by
  induction l generalizing s with
  | nil => exact ⟨fun _ => rfl, h⟩
  | cons r rest ih =>
    unfold serveList
    split
    · rename_i hs
      exact ⟨fun (hn : s.held = none) => (by rw [hn] at hs; cases hs), h⟩
    · exact ih (takeRequest_taken r s).derived

theorem offer_portInv {r : FabricRequest} {s : State} (h : PortInv s) : PortInv (offer r s) := by
  unfold offer
  split
  · rename_i hf
    have ht := takeRequest_taken r s
    exact ⟨fun _ => ht.offered.trans hf.2, ht.derived⟩
  · exact serveList_portInv h.2

theorem offer_shadowInv {r : FabricRequest} {s : State} (hr : r.ok = true) (h : ShadowInv s) :
    ShadowInv (offer r s) := by
  obtain ⟨hwf, hpage, hoff⟩ := h
  unfold offer
  split
  · have hm := takeRequest_inPage hr ⟨hwf, hpage⟩
    refine ⟨hm.1, hm.2, ?_⟩
    rwa [(takeRequest_taken r s).offered]
  · refine serveList_shadowInv (fun x hx => ?_) ⟨hwf, hpage⟩
    rcases List.mem_append.mp hx with hx | hx
    · exact hoff x hx
    · rwa [List.mem_singleton.mp hx]

/-! ### What a step can do to the traffic path -/

/-- Two states with the same fabric port and the same shadow. -/
structure SamePort (s t : State) : Prop where
  held    : t.held = s.held
  offered : t.offered = s.offered
  shadow  : t.plan.shadow = s.plan.shadow

theorem Path.samePort {s t : State} (h : Path s t) : SamePort s t := ⟨h.held, h.offered, h.shadow⟩

theorem SamePort.trans {s t u : State} (h : SamePort s t) (k : SamePort t u) : SamePort s u :=
  ⟨k.held.trans h.held, k.offered.trans h.offered, k.shadow.trans h.shadow⟩

theorem SamePort.shadowInv {s t : State} (h : SamePort s t) (hs : ShadowInv s) : ShadowInv t := by
  unfold ShadowInv
  rwa [h.shadow, h.offered]

theorem SamePort.portInv {s t : State} (h : SamePort s t) (hs : PortInv s) : PortInv t := by
  unfold PortInv
  rwa [h.held, h.offered]

/-- What one step does to the traffic path: nothing; the fabric offers a request that R1 admits; or, with what is held
shortened or discarded, the port serves what waits. -/
inductive TrafficStep (s t : State) : Prop where
  | same (h : SamePort s t)
  | offers (r : FabricRequest) (u : State) (hr : r.ok = true) (hu : SamePort s u)
      (ht : SamePort (offer r u) t)
  | serves (u : State) (ho : u.offered = s.offered) (hs : u.plan.shadow = s.plan.shadow ∨ u.plan.shadow = [])
      (hd : HoldsDerived s → HoldsDerived u) (ht : SamePort (serve u) t)

theorem TrafficStep.of_serve {s u : State} (ho : u.offered = s.offered)
    (hs : u.plan.shadow = s.plan.shadow ∨ u.plan.shadow = []) (hd : HoldsDerived s → HoldsDerived u) :
    TrafficStep s (serve u) :=
  .serves u ho hs hd Path.rfl.samePort

theorem TrafficStep.shadowInv {s t : State} (h : TrafficStep s t) (hs : ShadowInv s) : ShadowInv t := by
  cases h with
  | same h => exact h.shadowInv hs
  | offers r u hr hu ht => exact ht.shadowInv (offer_shadowInv hr (hu.shadowInv hs))
  | serves u ho hm hd ht =>
    obtain ⟨hwf, hpage, hoff⟩ := hs
    refine ht.shadowInv (serveList_shadowInv (ho ▸ hoff) ?_)
    rcases hm with hm | hm <;> rw [hm]
    · exact ⟨hwf, hpage⟩
    · exact Memory.inPage_nil

theorem TrafficStep.portInv {s t : State} (h : TrafficStep s t) (hs : PortInv s) : PortInv t := by
  cases h with
  | same h => exact h.portInv hs
  | offers r u hr hu ht => exact ht.portInv (offer_portInv (hu.portInv hs))
  | serves u ho hm hd ht => exact ht.portInv (serveList_portInv (hd hs.2))

/-! ### The rows of the memory port and the timers -/

theorem HeldRequest.keep_derived {h h' : HeldRequest} {ds : List Derived} (e : h.keep ds = some h') :
    h'.derived ≠ [] := by
  cases ds with
  | nil => cases e
  | cons d rest => cases e; exact List.cons_ne_nil _ _

theorem derivedTaken_traffic (s : State) : TrafficStep s (derivedTaken s) := by
  unfold derivedTaken
  split
  · exact .same Path.rfl.samePort
  · split
    · exact .same Path.rfl.samePort
    · exact .of_serve rfl (.inl rfl) fun _ _ e => HeldRequest.keep_derived e

theorem takePresented_samePort (w : ReportWrite) (s : State) : SamePort s (takePresented w s) := ⟨rfl, rfl, rfl⟩

theorem frameRecordTaken_samePort (s : State) : SamePort s (frameRecordTaken s) := by
  unfold frameRecordTaken
  split <;> exact ⟨rfl, rfl, rfl⟩

theorem recordEffect_samePort (k : RecordKind) (s : State) : SamePort s (recordEffect k s) := by
  unfold recordEffect
  split
  · split <;> exact ⟨rfl, rfl, rfl⟩
  · exact ⟨rfl, rfl, rfl⟩
  · exact frameRecordTaken_samePort s

theorem recordTaken_samePort (s : State) : SamePort s (recordTaken s) := by
  unfold recordTaken
  split
  · split
    · exact Path.rfl.samePort
    · refine SamePort.trans ?_ (present_chosen _).path.samePort
      refine SamePort.trans ?_ (countRecord_path _).samePort
      exact SamePort.trans (takePresented_samePort _ s) (recordEffect_samePort _ _)
  · exact Path.rfl.samePort

theorem takePresented_present_samePort (w : ReportWrite) (s : State) : SamePort s (present (takePresented w s)) :=
  (takePresented_samePort w s).trans (present_chosen _).path.samePort

theorem reportWordTaken_samePort (s : State) : SamePort s (reportWordTaken s) := by
  unfold reportWordTaken
  split
  · split
    · exact Path.rfl.samePort
    · exact takePresented_present_samePort _ _
  · split
    · exact Path.rfl.samePort
    · exact takePresented_present_samePort _ _
  · exact Path.rfl.samePort

theorem snapshotEnds_samePort (s : State) : SamePort s (snapshotEnds s) := by
  unfold snapshotEnds
  split <;> exact ⟨rfl, rfl, rfl⟩

theorem snapshotWriteTaken_samePort (s : State) : SamePort s (snapshotWriteTaken s) := by
  unfold snapshotWriteTaken
  split
  · split
    · exact Path.rfl.samePort
    · refine SamePort.trans ?_ (present_chosen _).path.samePort
      exact SamePort.trans (takePresented_samePort _ s) (snapshotEnds_samePort _)
  · exact Path.rfl.samePort

theorem fillWriteTaken_samePort (s : State) : SamePort s (fillWriteTaken s) := by
  unfold fillWriteTaken
  split
  · exact Path.rfl.samePort
  · split
    · exact Path.rfl.samePort
    · split
      · exact Path.rfl.samePort
      · refine SamePort.trans ?_ (present_chosen _).path.samePort
        refine SamePort.trans ?_ (settle_inner _).path.samePort
        exact SamePort.trans (t := issue _ s) ⟨rfl, rfl, rfl⟩ (advancePatch_inner _ _).path.samePort

theorem attentionExpires_path (s : State) : Path s (attentionExpires s) := by
  unfold attentionExpires
  split
  · exact Path.trans (path_of_report s _) (evalAttn_path _)
  · exact Path.rfl

theorem tickAttnTimer_path (s : State) : Path s (tickAttnTimer s) := by
  unfold tickAttnTimer
  split
  · split
    · exact attentionExpires_path s
    · exact path_of_report s _
  · exact Path.rfl

theorem cutHeldLine_inner (number : Count) (s : State) : Inner s (cutHeldLine number s) := by
  unfold cutHeldLine
  split
  · exact onFrame_inner _ _ _
  · exact Inner.rfl

/-- Withdrawal shortens or releases what is held, and leaves the offered requests and the shadow alone (R13). -/
theorem withdraw_traffic (number : Count) (s : State) :
    (withdraw number s).offered = s.offered ∧ (withdraw number s).plan.shadow = s.plan.shadow
      ∧ (HoldsDerived s → HoldsDerived (withdraw number s)) := by
  unfold withdraw
  split
  · exact ⟨rfl, rfl, id⟩
  · split
    · dsimp only
      refine ⟨?_, ?_, fun _ _ e => HeldRequest.keep_derived e⟩ <;> repeat' split
      all_goals rfl
    · exact ⟨rfl, rfl, id⟩

/-- The seal timer stopped. -/
def timerStopped (s : State) : State := { s with table := { s.table with sealTimer := .idle } }

/-- The state in which the seal timer's seal of a frame begins: a line that the held write completed counts as cut, the timer
is idle, and the frame's waiting writes are withdrawn (R13, R103, R113). -/
def atTimerSeal (number : Count) (s : State) : State := withdraw number (timerStopped (cutHeldLine number s))

/-- The expiry of a running timer (R113). -/
theorem sealTimerExpires_running {s : State} {number : Count} {r : Nat} (h : s.table.sealTimer = .running number r) :
    sealTimerExpires s = serve (present (settle (sealWithCascade .timer (atTimerSeal number s)))) := by
  unfold sealTimerExpires
  rw [h]
  rfl

theorem sealTimerExpires_idle {s : State} (h : s.table.sealTimer = .idle) : sealTimerExpires s = s := by
  unfold sealTimerExpires
  rw [h]

theorem sealTimerExpires_traffic (s : State) : TrafficStep s (sealTimerExpires s) := by
  cases h : s.table.sealTimer with
  | idle =>
    rw [sealTimerExpires_idle h]
    exact .same Path.rfl.samePort
  | running number r =>
    rw [sealTimerExpires_running h]
    have hcut := cutHeldLine_inner number s
    obtain ⟨ho, hs, hd⟩ := withdraw_traffic number (timerStopped (cutHeldLine number s))
    have hseal : SamePort (atTimerSeal number s) (present (settle (sealWithCascade .timer (atTimerSeal number s)))) :=
      ((sealWithCascade_inner _ _).path.trans ((settle_inner _).path.trans (present_chosen _).path)).samePort
    refine .of_serve (hseal.offered.trans (ho.trans hcut.offered)) (.inl (hseal.shadow.trans (hs.trans hcut.shadow)))
      fun h x hx => hd (fun y hy => ?_) x (hseal.held ▸ hx)
    exact h y (hcut.held ▸ hy)

/-! ### The rows of the fabric and one step -/

theorem TrafficStep.trans_samePort {s t u : State} (h : TrafficStep s t) (k : SamePort t u) : TrafficStep s u := by
  cases h with
  | same h => exact .same (h.trans k)
  | offers r v hr hv e => exact .offers r v hr hv (e.trans k)
  | serves v ho hs hd e => exact .serves v ho hs hd (e.trans k)

theorem offer_traffic {r : FabricRequest} (s : State) (hr : r.ok = true) : TrafficStep s (offer r s) :=
  .offers r s hr Path.rfl.samePort Path.rfl.samePort

theorem powerOn_traffic (sel : Byte) (s : State) : TrafficStep s (powerOn sel s) := by
  unfold powerOn
  exact .of_serve rfl (.inr rfl) fun _ _ e => nomatch e

/-- A fabric write that R1 admits is offered; every other one stops the part (log 10). -/
theorem offerWrite_eq (w : FabricWrite) (s : State) :
    offerWrite w s = if w.ok then .next (offer (.write w) s) else .fault .fabricGuaranteeBroken := rfl

theorem offerWrite_traffic {w : FabricWrite} {s t : State} (h : offerWrite w s = .next t) : TrafficStep s t := by
  rw [offerWrite_eq] at h
  split at h
  · cases h
    exact offer_traffic s ‹_›
  · cases h

theorem offerMailbox_traffic (code : Byte) (m : Mailbox) (s : State) : TrafficStep s (offerMailbox code m s) :=
  offer_traffic s (mailboxWrite_ok s code m)

theorem exec_traffic {c : Instr} {s t : State} (h : exec c s = .next t) : TrafficStep s t := by
  cases c with
  | read a len tag =>
    change (if lengthOk len then _ else _) = _ at h
    split at h
    · cases h
      exact offer_traffic s ‹_›
    · cases h
  | passWrite w => exact offerWrite_traffic h
  | planWrite w => exact offerWrite_traffic h
  | lineStart w => exact offerWrite_traffic h
  | continuation w => exact offerWrite_traffic h
  | powerOnReset sel => cases h; exact powerOn_traffic sel s
  | readResponse tag data => cases h; exact .same ⟨rfl, rfl, rfl⟩
  | consumerWord reqTag v => cases h; exact offer_traffic s (consumerWrite_ok s reqTag v)
  | commit m => cases h; exact offerMailbox_traffic _ m s
  | start m => cases h; exact offerMailbox_traffic _ m s
  | stop m => cases h; exact offerMailbox_traffic _ m s
  | abort m => cases h; exact offerMailbox_traffic _ m s
  | flush m => cases h; exact offerMailbox_traffic _ m s
  | release m => cases h; exact offerMailbox_traffic _ m s
  | snapshot m => cases h; exact offerMailbox_traffic _ m s
  | clearErrors m => cases h; exact offerMailbox_traffic _ m s
  | inject m => cases h; exact offerMailbox_traffic _ m s
  | unknown code m => cases h; exact offerMailbox_traffic code m s
  | derivedRequestTaken => cases h; exact derivedTaken_traffic s
  | recordTaken => cases h; exact .same (recordTaken_samePort s)
  | reportWordTaken => cases h; exact .same (reportWordTaken_samePort s)
  | snapshotWriteTaken => cases h; exact .same (snapshotWriteTaken_samePort s)
  | fillWriteTaken => cases h; exact .same (fillWriteTaken_samePort s)
  | sealTimerExpiry => cases h; exact sealTimerExpires_traffic s
  | attentionTimerExpiry => cases h; exact .same (attentionExpires_path s).samePort

theorem tickSealTimer_traffic (s : State) : TrafficStep s (tickSealTimer s) := by
  unfold tickSealTimer
  split
  · exact .same Path.rfl.samePort
  · split
    · exact sealTimerExpires_traffic s
    · exact .same ⟨rfl, rfl, rfl⟩

/-- The invariants of the traffic path do not read the queue of commands. -/
theorem TrafficStep.of_pending {s t : State} {l : List Instr} (h : TrafficStep { s with pending := l } t) :
    TrafficStep s t := by
  cases h with
  | same h => exact .same ⟨h.held, h.offered, h.shadow⟩
  | offers r u hr hu ht => exact .offers r u hr ⟨hu.held, hu.offered, hu.shadow⟩ ht
  | serves u ho hs hd ht => exact .serves u ho hs hd ht

theorem step_traffic {s t : State} (h : step s = .next t) : TrafficStep s t := by
  unfold step at h
  split at h
  · cases h
    exact (tickSealTimer_traffic s).trans_samePort (tickAttnTimer_path _).samePort
  · exact (exec_traffic h).of_pending

/-- Settles O53: whatever a step does to the traffic path (`TrafficStep`) keeps both invariants. -/
theorem stepKeepsTraffic : Obligations.StepKeepsTraffic :=
  ⟨fun _ _ hs h => (step_traffic h).shadowInv hs, fun _ _ hs h => (step_traffic h).portInv hs⟩

end Sys2Proof.Machine
end

section
/-! The rows of the fabric and of the memory port (R1 to R13): which requests stop the part, what the port holds, how a write
is classed, and who takes an opening. -/

namespace Sys2Proof.Machine

/-! ### Stops (log 10) -/

theorem execRead_eq (a : Addr) (len : Nat) (tag : Byte) (s : State) :
    exec (.read a len tag) s =
      if lengthOk len then .next (offer (.read a len tag) s) else .fault .fabricGuaranteeBroken := rfl

/-- The row offers a fabric write (R6, R7, R22, R23; log 4). -/
def OffersWrite (c : Instr) (w : FabricWrite) : Prop :=
  c = .passWrite w ∨ c = .planWrite w ∨ c = .lineStart w ∨ c = .continuation w

theorem exec_of_offers {c : Instr} {w : FabricWrite} (h : OffersWrite c w) (s : State) : exec c s = offerWrite w s := by
  rcases h with rfl | rfl | rfl | rfl <;> rfl

/-- A row that is neither a read nor a fabric write answers a next state. -/
theorem exec_next_of_no_request (c : Instr) (s : State) (hr : ∀ a len tag, c ≠ .read a len tag)
    (hw : ∀ w, ¬OffersWrite c w) : ∃ t, exec c s = .next t := by
  cases c with
  | read a len tag => exact absurd rfl (hr a len tag)
  | passWrite w => exact absurd (.inl rfl) (hw w)
  | planWrite w => exact absurd (.inr (.inl rfl)) (hw w)
  | lineStart w => exact absurd (.inr (.inr (.inl rfl))) (hw w)
  | continuation w => exact absurd (.inr (.inr (.inr rfl))) (hw w)
  | _ => exact ⟨_, rfl⟩

/-- Settles O2: a read and the four fabric writes are decided by R1, and no other row stops. -/
theorem onlyBadRequestsStop : Obligations.OnlyBadRequestsStop := by
  intro c s lengthOk' onePage admitted bad
  have admitted_iff (w : FabricWrite) : admitted w ↔ w.ok = true := (FabricWrite.ok_iff w).symm
  constructor
  · rintro (⟨a, len, tag, rfl, hl⟩ | ⟨w, hc, hw⟩)
    · rw [execRead_eq, if_neg fun e => hl ((lengthOk_iff len).mp e)]
    · rw [exec_of_offers hc, offerWrite_eq, if_neg fun e => hw ((admitted_iff w).mpr e)]
  · intro hgood
    by_cases hr : ∃ a len tag, c = .read a len tag
    · obtain ⟨a, len, tag, rfl⟩ := hr
      have hl : lengthOk' len := by_contra fun hl => hgood (.inl ⟨a, len, tag, rfl, hl⟩)
      rw [execRead_eq, if_pos ((lengthOk_iff len).mpr hl)]
      exact ⟨_, rfl⟩
    by_cases hw : ∃ w, OffersWrite c w
    · obtain ⟨w, hc⟩ := hw
      have ha : admitted w := by_contra fun ha => hgood (.inr ⟨w, hc, ha⟩)
      rw [exec_of_offers hc, offerWrite_eq, if_pos ((admitted_iff w).mp ha)]
      exact ⟨_, rfl⟩
    exact exec_next_of_no_request c s (fun a len tag e => hr ⟨a, len, tag, e⟩) fun w hc => hw ⟨w, hc⟩

/-! ### The held request (R2, R3, R12) -/

/-- While the port holds a request nothing more is served. -/
theorem serve_held {s : State} (h : s.held.isSome = true) : serve s = s := by
  unfold serve
  cases ho : s.offered with
  | nil =>
    unfold serveList
    rw [← ho]
  | cons r rest =>
    unfold serveList
    rw [if_pos h, ← ho]

/-- A port that is free takes a waiting read, and the rest stay offered. -/
theorem serve_read {s : State} {a : Addr} {len : Nat} {tag : Byte} {more : List FabricRequest} (h : s.held = none)
    (ho : s.offered = .read a len tag :: more) :
    serve s = { s with
      held := some { request := .read a len tag, lane := none,
                     derived := [{ kind := .forward, req := .read a.toNat len tag }] }
      offered := more } := by
  have hn : ¬s.held.isSome = true := by rw [h]; exact nofun
  unfold serve
  rw [ho, serveList, if_neg hn]
  cases more <;> rfl

/-- The first derived request reaches the controller, and the port goes on with the rest of them (R12). -/
theorem derivedTaken_cons {s : State} {h : HeldRequest} {d : Derived} {rest : List Derived} (hh : s.held = some h)
    (hd : h.derived = d :: rest) : derivedTaken s = serve (issue d.req { s with held := h.keep rest }) := by
  unfold derivedTaken
  rw [hh]
  dsimp only
  rw [hd]

/-- Settles O5: an offered request joins those offered before, and the port goes on with the rest of what it holds. -/
theorem portHoldsOneRequest : Obligations.PortHoldsOneRequest := by
  refine ⟨fun s hs => ⟨fun a len tag h1 h2 => ?_, fun w hw => ?_⟩, fun s h d rest hh hd => ⟨?_, ?_, ?_⟩⟩
  · rw [execRead_eq, if_pos ((lengthOk_iff len).mpr ⟨h1, h2⟩), offer_held _ s hs]
  · have waits {c : Instr} (hc : OffersWrite c w) : exec c s = .next { s with offered := s.offered ++ [.write w] } := by
      rw [exec_of_offers hc, offerWrite_eq, if_pos hw, offer_held _ s hs]
    exact ⟨waits (.inl rfl), waits (.inr (.inl rfl)), waits (.inr (.inr (.inl rfl))), waits (.inr (.inr (.inr rfl)))⟩
  · intro hr
    obtain ⟨d', rest', rfl⟩ := List.exists_cons_of_ne_nil hr
    show Host.Outcome.next (derivedTaken s) = _
    rw [derivedTaken_cons hh hd, serve_held rfl]
    rfl
  · rintro rfl ho
    show Host.Outcome.next (derivedTaken s) = _
    rw [derivedTaken_cons hh hd]
    exact congrArg Host.Outcome.next (serve_none (issue d.req { s with held := none }) ho)
  · rintro a len tag more rfl ho
    show Host.Outcome.next (derivedTaken s) = _
    rw [derivedTaken_cons hh hd]
    exact congrArg Host.Outcome.next (serve_read (s := issue d.req { s with held := none }) rfl ho)

/-- Settles O4: a free port takes the read at once, and a response is only recorded. -/
theorem readsPassUnchanged : Obligations.ReadsPassUnchanged := by
  refine ⟨fun a len tag s hf h1 h2 => ?_, fun tag data s => rfl⟩
  rw [execRead_eq, if_pos ((lengthOk_iff len).mpr ⟨h1, h2⟩), offer_free _ s hf]
  rfl

/-! ### Writes by their class (R5 to R7) -/

/-- A fabric write that R1 admits, offered to a free port, is taken at once. -/
theorem offerWrite_free {w : FabricWrite} {s : State} (hw : w.ok = true) (hf : s.portFree) :
    offerWrite w s = .next (takeWrite w s) := by
  rw [offerWrite_eq, if_pos hw, offer_free _ s hf]
  rfl

/-- Settles O6: a free port takes the write at once, and holds it for its forwarding alone. -/
theorem passWriteIsForwarded : Obligations.PassWriteIsForwarded := by
  intro w s hw hf hc
  show offerWrite w s = _
  rw [offerWrite_free hw hf]
  unfold takeWrite
  rw [hc]
  rfl

theorem inWindow_iff (e : LaneEntry) (a : Nat) :
    inWindow e a = true ↔ e.winLines ≠ 0 ∧ e.winBase ≤ a ∧ a < e.winBase + e.winLines * e.winStride := by
  simp only [inWindow, LaneEntry.vacant, LaneEntry.winBytes, Bool.and_eq_true, Bool.not_eq_true', decide_eq_false_iff_not,
    and_assoc]
  exact and_congr_right' (and_congr decide_eq_true_iff decide_eq_true_iff)

theorem mem_allLanes (n : Lane) : n ∈ allLanes := by
  revert n; decide

/-- The lane of R5: the one whose window holds the byte. -/
theorem windowOf_eq_some {p : Plan} {a : Nat} {n : Lane} (hn : inWindow p.static.lanes[n] a = true)
    (unique : ∀ m : Lane, inWindow p.static.lanes[m] a = true → m = n) : windowOf (some p) a = some n := by
  have hs : (windowOf (some p) a).isSome = true := List.find?_isSome.mpr ⟨n, mem_allLanes n, hn⟩
  obtain ⟨m, hm⟩ := Option.isSome_iff_exists.mp hs
  have hw := List.find?_some (p := fun m : Lane => inWindow p.static.lanes[m] a) hm
  rw [hm, unique m hw]

theorem windowOf_eq_none {live : Option Plan} {a : Nat}
    (h : ∀ p, live = some p → ∀ n : Lane, ¬inWindow p.static.lanes[n] a = true) : windowOf live a = none := by
  cases live with
  | none => rfl
  | some p => exact List.find?_eq_none.mpr fun n _ => h p rfl n

/-- Outside the plan page a write is classed by the landing windows (R5). -/
theorem classify_outside {s : State} {a : Nat} (h : ¬(s.planBase ≤ a ∧ a < s.planBase + 4096)) :
    classify s a = match windowOf s.plan.live a with
      | some n => .landing n
      | none => .pass := by
  unfold classify
  exact if_neg h

/-- Settles O8: the plan page comes first, and the window that alone holds the byte is the one found. -/
theorem writesAreClassified : Obligations.WritesAreClassified := by
  intro s a inPage window
  have window_iff (p : Plan) (n : Lane) : window p n ↔ inWindow p.static.lanes[n] a = true := (inWindow_iff _ a).symm
  refine ⟨classify_plan_iff.mpr, fun p n hout hp hn hu => ?_, fun hout hnone => ?_⟩
  · rw [classify_outside hout, hp, windowOf_eq_some ((window_iff p n).mp hn) fun m hm => hu m ((window_iff p m).mpr hm)]
  · rw [classify_outside hout, windowOf_eq_none fun p hp n hw => hnone p n hp ((window_iff p n).mpr hw)]

theorem covers_iff (off len target : Nat) : covers off len target = true ↔ off ≤ target ∧ target < off + len := by
  simp only [covers, Bool.and_eq_true]
  exact and_congr decide_eq_true_iff decide_eq_true_iff

theorem planConsumer_of_not_covered {off len : Nat} {s : State} (h : covers off len offConsumerActs = false) :
    planConsumer off len s = s := by
  unfold planConsumer
  rw [h]
  rfl

theorem planCommand_of_no_tag {off len : Nat} {s : State}
    (h : covers off len offTag = true → s.plan.shadow.read offTag = 0) : planCommand off len s = s := by
  unfold planCommand
  rw [if_neg]
  intro hc
  obtain ⟨hcov, htag⟩ := Bool.and_eq_true_iff.mp hc
  exact of_decide_eq_true htag (h hcov)

/-- Settles O7: the write covers neither the byte that makes the consumer word act nor a tag byte other than 0, so only the
copy remains of its effect. -/
theorem planWriteIsCopied : Obligations.PlanWriteIsCopied := by
  intro w s hw hf hwf hquiet hlo hhi hconsumer htag
  obtain ⟨off, haddr⟩ : ∃ off, w.addr.toNat = s.planBase + off := ⟨w.addr.toNat - s.planBase, by omega⟩
  have hoff : w.addr.toNat - s.planBase = off := by omega
  rw [hoff] at hconsumer htag ⊢
  have inside (i : Nat) (b : Byte) (hb : w.data[i]? = some b) :
      (s.plan.shadow.writeBytes off w.data).read (off + i) = b := by
    obtain ⟨hi, rfl⟩ := List.getElem?_eq_some_iff.mp hb
    exact Memory.read_writeBytes_inside hwf off w.data i hi
  have covered {target : Nat} (hc : covers off w.data.length target = true) :
      ∃ i b, w.data[i]? = some b ∧ off + i = target := by
    obtain ⟨h1, h2⟩ := (covers_iff _ _ _).mp hc
    exact ⟨target - off, _, List.getElem?_eq_getElem (by omega), by omega⟩
  refine ⟨s.plan.shadow.writeBytes off w.data, ?_, inside, fun a ha => ?_⟩
  · show offerWrite w s = _
    rw [offerWrite_free hw hf, takeWrite_plan haddr (by omega), planConsumer_of_not_covered, planCommand_of_no_tag]
    · exact congrArg Host.Outcome.next (present_fixed hquiet rfl rfl rfl)
    · intro hc
      obtain ⟨i, b, hb, hi⟩ := covered hc
      have hz : b = 0 := htag i b hb hi
      rw [← hz, ← inside i b hb, hi]
    · rw [← Bool.not_eq_true]
      intro hc
      obtain ⟨i, b, hb, hi⟩ := covered hc
      exact hconsumer i b hb hi
  · exact Memory.read_writeBytes_outside hwf off w.data a ha

/-! ### The arbiter (R13) -/

theorem fabricWaiting_of_derived {s : State} {h : HeldRequest} (hh : s.held = some h) (hd : h.derived ≠ []) :
    fabricWaiting s = true := by
  unfold fabricWaiting
  rw [hh]
  cases hc : h.derived with
  | nil => exact absurd hc hd
  | cons d rest => simp [hc]

theorem recordTaken_of_waiting {s : State} (h : fabricWaiting s = true) : recordTaken s = s := by
  unfold recordTaken
  split
  · rw [if_pos h]
  · rfl

theorem reportWordTaken_of_waiting {s : State} (h : fabricWaiting s = true) : reportWordTaken s = s := by
  unfold reportWordTaken
  split
  · rw [if_pos h]
  · rw [if_pos h]
  · rfl

theorem snapshotWriteTaken_of_waiting {s : State} (h : fabricWaiting s = true) : snapshotWriteTaken s = s := by
  unfold snapshotWriteTaken
  split
  · rw [if_pos h]
  · rfl

/-- A fill write is taken only when nothing that goes before it waits. -/
theorem fillWriteTaken_of_other {s : State} (h : (fabricWaiting s || s.report.presented.isSome) = true) :
    fillWriteTaken s = s := by
  unfold fillWriteTaken
  split
  · rfl
  · split
    · rfl
    · rw [if_pos h]

/-- Settles O9: each of the four rows asks first whether something goes before it. -/
theorem arbiterOrder : Obligations.ArbiterOrder := by
  refine fun s => ⟨fun h hh hd => ?_, fun hp => congrArg Host.Outcome.next ?_⟩
  · have hw := fabricWaiting_of_derived hh hd
    exact ⟨congrArg Host.Outcome.next (recordTaken_of_waiting hw),
      congrArg Host.Outcome.next (reportWordTaken_of_waiting hw),
      congrArg Host.Outcome.next (snapshotWriteTaken_of_waiting hw),
      congrArg Host.Outcome.next (fillWriteTaken_of_other (by rw [hw]; rfl))⟩
  · exact fillWriteTaken_of_other (by rw [hp, Bool.or_true])

/-! ### Bursts that reach no line (R20, R27) -/

/-- Settles O10: such a burst leaves the part quiet, so nothing follows it but the Report Unit's choice. -/
theorem burstsAreChecked : Obligations.BurstsAreChecked := by
  constructor
  · intro w n s hl hq hoff
    have key : landingEffect n w s = s := by
      rw [landing_quiet (landingBurst_off hoff) (settle_same hq rfl rfl rfl id rfl)]
      show present { s with held := none } = s
      rw [show ({ s with held := none } : State) = s by rw [← hl.2.1.1]]
      exact hq.2.2
    have he := exec_landing hl
    rwa [key] at he
  · intro w n s hl hq hon hr
    obtain ⟨hstart, hcont⟩ := exec_landing hl
    refine ⟨_, hstart, hcont, ?_⟩
    exact landing_quiet (landingBurst_rejected hon hr) (settle_same hq rfl rfl rfl id rfl)

/-! ### Power-on reset (R15) -/

/-- Settles O3: with nothing offered, the reset state is the whole answer. -/
theorem powerOnReset : Obligations.PowerOnReset := by
  intro sel s ho
  have served : powerOn sel s
      = { State.resetWith sel with memStream := s.memStream, fabricOut := s.fabricOut, pending := s.pending } := by
    unfold powerOn
    rw [serve_none _ (by exact ho), ho]
    rfl
  refine ⟨_, congrArg Host.Outcome.next served, rfl, rfl, rfl, rfl, rfl, fun n => ?_, rfl, fun k => ?_, rfl, rfl, rfl, rfl,
    rfl, rfl, rfl, rfl, fun k => ?_, rfl, fun _ => rfl, rfl, rfl, rfl, rfl, rfl⟩
  · exact Vector.getElem_replicate n.isLt
  · exact Vector.getElem_replicate k.isLt
  · exact Vector.getElem_replicate k.isLt

end Sys2Proof.Machine
end

section
/-! Every invariant at power-on reset (R15, R40, R44, R68, R87, R126, R137, R153, R169). -/

namespace Sys2Proof.Machine

section
variable (sel : Byte)

theorem reset_lane (n : Lane) : (State.resetWith sel).lanes[n] = LaneTracker.atReset :=
  Vector.getElem_replicate n.isLt

theorem reset_slot (k : Fin 32) : (State.resetWith sel).table.slots[k] = .free := Vector.getElem_replicate k.isLt

theorem reset_latch (k : Fin 52) : (State.resetWith sel).report.latches[k] = Latch.atReset :=
  Vector.getElem_replicate k.isLt

theorem reset_shadowInv : ShadowInv (State.resetWith sel) := ⟨rfl, nofun, nofun⟩

theorem reset_portInv : PortInv (State.resetWith sel) := ⟨fun _ => rfl, nofun⟩

theorem reset_captureInv : CaptureInv (State.resetWith sel) :=
  ⟨iff_of_true rfl rfl, fun _ => rfl, fun n hn => absurd (congrArg LaneTracker.state (reset_lane sel n)) hn⟩

theorem reset_chainInv : ChainInv (State.resetWith sel) := by
  refine ⟨reset_captureInv sel, Nat.zero_le 4, trivial, fun f h => ?_⟩
  cases h

theorem reset_rowsInv : RowsInv (State.resetWith sel) := by
  refine ⟨reset_captureInv sel, fun p h => ?_, fun b h => ?_, fun f h => ?_⟩ <;> cases h

theorem reset_ringInv : RingInv (State.resetWith sel) := by
  intro p h
  cases h

theorem reset_attnInv : AttnInv (State.resetWith sel) := by
  refine ⟨fun _ => rfl, fun p h => ?_⟩
  cases h

theorem reset_countsInv : CountsInv (State.resetWith sel) := by
  refine ⟨Nat.zero_le _, fun k => ?_, Nat.zero_le _, fun f h => ?_⟩
  · rw [reset_latch]
    exact Nat.zero_le _
  · cases h

theorem reset_slotInv : SlotInv (State.resetWith sel) := by
  refine ⟨List.nodup_nil, List.nodup_nil, fun k => ?_, fun k => ?_, fun w h => ?_, fun h => ?_⟩
  · rw [reset_slot]
    exact iff_of_false nofun List.not_mem_nil
  · rw [reset_slot]
    exact iff_of_false (by simp) List.not_mem_nil
  · cases h
  · cases h

theorem reset_queueInv : QueueInv (State.resetWith sel) := by
  refine ⟨reset_chainInv sel, fun i x y h => ?_, fun x h => ?_⟩ <;> cases h

theorem reset_choiceInv : ChoiceInv (State.resetWith sel) :=
  (present_eq_iff _).mpr (.inr ⟨rfl, rfl, rfl, fun h => nomatch h⟩)

theorem reset_quiet : Quiet (State.resetWith sel) := by
  refine ⟨fun _ => rfl, ?_, reset_choiceInv sel⟩
  rintro ⟨⟨⟩, _⟩

end

/-- Settles O52: nothing is held, open, queued or live at reset. -/
theorem invariantsHoldAtReset : Obligations.InvariantsHoldAtReset := fun sel =>
  ⟨reset_shadowInv sel, reset_portInv sel, reset_captureInv sel, reset_chainInv sel, reset_rowsInv sel, rfl,
    reset_ringInv sel, reset_attnInv sel, reset_countsInv sel, reset_slotInv sel, reset_queueInv sel, reset_choiceInv sel,
    reset_quiet sel⟩

end Sys2Proof.Machine
end

section
/-! What a seal makes of a frame and of the seal queue (R115 to R120): the run tails, the entry of the sealed frame, and what
the seals that follow leave of it. -/

namespace Sys2Proof.Machine

/-! ### Run tails (R115 step 3) -/

/-- Recording a run changes the missing count, the run list and the overflow flag alone, and reads neither the damaged count
nor whether N is fixed. -/
theorem Frame.recordUpTo_eq (n : Lane) (stop : Nat) (f : Frame) :
    ∃ m rs o, ∀ d b, Frame.recordUpTo n stop { f with damaged := d, fixed := b }
      = { f with damaged := d, fixed := b, missing := m, runs := rs, overflow := o } := by
  cases hc : f.cursors[n] with
  | closed => exact ⟨f.missing, f.runs, f.overflow, fun d b => by simp only [Frame.recordUpTo, hc]⟩
  | expects q =>
    by_cases hq : q < stop
    · by_cases hr : f.runs.length < Config.maxRuns
      · exact ⟨f.missing + (stop - q), f.runs ++ [{ lane := n, first := q, count := stop - q }], f.overflow,
          fun d b => by simp only [Frame.recordUpTo, Frame.recordRun, hc, if_pos hq, if_pos hr]⟩
      · exact ⟨f.missing + (stop - q), f.runs, true,
          fun d b => by simp only [Frame.recordUpTo, Frame.recordRun, hc, if_pos hq, if_neg hr]⟩
    · exact ⟨f.missing, f.runs, f.overflow, fun d b => by simp only [Frame.recordUpTo, hc, if_neg hq]⟩

/-- The run tails of a list of lanes. -/
theorem Frame.foldl_recordUpTo_eq (p : Plan) (l : List Lane) (f : Frame) :
    ∃ m rs o, ∀ d b,
      l.foldl (fun f n => if p.enabled n then f.recordUpTo n (f.extent p.static) else f)
          { f with damaged := d, fixed := b }
        = { f with damaged := d, fixed := b, missing := m, runs := rs, overflow := o } := by
  induction l generalizing f with
  | nil => exact ⟨f.missing, f.runs, f.overflow, fun _ _ => rfl⟩
  | cons n l ih =>
    simp only [List.foldl_cons]
    by_cases hn : p.enabled n = true
    · obtain ⟨m, rs, o, h⟩ := Frame.recordUpTo_eq n (f.extent p.static) f
      obtain ⟨m', rs', o', h'⟩ := ih { f with missing := m, runs := rs, overflow := o }
      refine ⟨m', rs', o', fun d b => ?_⟩
      rw [if_pos hn]
      exact (congrArg (List.foldl _ · l) (h d b)).trans (h' d b)
    · simp only [if_neg hn]
      exact ih f

theorem Frame.closeAll_eq (p : Plan) (f : Frame) :
    ∃ m rs o, ∀ d b, Frame.closeAll p { f with damaged := d, fixed := b }
      = { f with damaged := d, fixed := b, missing := m, runs := rs, overflow := o,
                 cursors := Vector.replicate 8 .closed } := by
  obtain ⟨m, rs, o, h⟩ := Frame.foldl_recordUpTo_eq p allLanes f
  exact ⟨m, rs, o, fun d b => congrArg (fun g : Frame => { g with cursors := Vector.replicate 8 .closed }) (h d b)⟩

/-- Closing a frame changes its missing count, run list, overflow flag and cursors alone. -/
theorem Frame.closeAll_keeps (p : Plan) (f : Frame) :
    f.closeAll p = { f with missing := (f.closeAll p).missing, runs := (f.closeAll p).runs,
                            overflow := (f.closeAll p).overflow, cursors := Vector.replicate 8 .closed } := by
  obtain ⟨m, rs, o, h⟩ := Frame.closeAll_eq p f
  have e := h f.damaged f.fixed
  rw [show ({ f with damaged := f.damaged, fixed := f.fixed } : Frame) = f from rfl] at e
  rw [e]

/-- The run tails depend neither on the damaged count nor on whether N is fixed. -/
theorem Frame.closeAll_with (p : Plan) (f : Frame) (d : Nat) (b : Bool) :
    Frame.closeAll p { f with damaged := d, fixed := b } = { f.closeAll p with damaged := d, fixed := b } := by
  obtain ⟨m, rs, o, h⟩ := Frame.closeAll_eq p f
  have e := h f.damaged f.fixed
  rw [show ({ f with damaged := f.damaged, fixed := f.fixed } : Frame) = f from rfl] at e
  rw [h, e]

section
variable (p : Plan) (f : Frame)

@[simp] theorem Frame.closeAll_number : (f.closeAll p).number = f.number := by rw [closeAll_keeps]
@[simp] theorem Frame.closeAll_slot : (f.closeAll p).slot = f.slot := by rw [closeAll_keeps]
@[simp] theorem Frame.closeAll_rows : (f.closeAll p).rows = f.rows := by rw [closeAll_keeps]
@[simp] theorem Frame.closeAll_start : (f.closeAll p).start = f.start := by rw [closeAll_keeps]
@[simp] theorem Frame.closeAll_correction : (f.closeAll p).correction = f.correction := by rw [closeAll_keeps]
@[simp] theorem Frame.closeAll_clamped : (f.closeAll p).clamped = f.clamped := by rw [closeAll_keeps]
@[simp] theorem Frame.closeAll_delivered : (f.closeAll p).delivered = f.delivered := by rw [closeAll_keeps]
@[simp] theorem Frame.closeAll_firstTime : (f.closeAll p).firstTime = f.firstTime := by rw [closeAll_keeps]
@[simp] theorem Frame.closeAll_markTaken : (f.closeAll p).markTaken = f.markTaken := by rw [closeAll_keeps]

end

/-! ### The record of a sealed frame (R115 to R117, R120) -/

/-- The record of a frame that seals with `cut` of its lines cut. -/
def Frame.sealedWith (p : Plan) (cut : Nat) (fixed : Bool) (f : Frame) : Frame :=
  { f.closeAll p with damaged := min 65535 (f.damaged + cut), fixed := fixed }

theorem Frame.sealedWith_slot (p : Plan) (cut : Nat) (fixed : Bool) (f : Frame) :
    (f.sealedWith p cut fixed).slot = f.slot :=
  Frame.closeAll_slot p f

/-- The seal's own record is that one, when the frame has since taken `d` damaged lines and may have been fixed. -/
theorem sealedFrame_eq {u : State} {f : Frame} {d cut : Nat} (b : Bool)
    (h : min 65535 (d + linesInFlight f.number u.lanes) = min 65535 (f.damaged + cut)) :
    sealedFrame u { f with damaged := d, fixed := b } = f.sealedWith u.livePlan cut b := by
  unfold sealedFrame Frame.sealedWith Frame.damageBy
  rw [Frame.closeAll_with]
  dsimp only [Config.max16]
  rw [h]

theorem sealedEntry_slotEntryOf {p : Plan} {f : Frame} {k : Fin 32} (cut : Nat) (b patched : Bool) (st : FrameStatus)
    (hk : f.slot = some k) : SealedEntry p st cut f (slotEntryOf (f.sealedWith p cut b) k st patched) := by
  simp [SealedEntry, slotEntryOf, Frame.sealedWith, hk]

theorem skipCovers_skipEntryOf (p : Plan) (cut : Nat) (b : Bool) (f : Frame) :
    SkipCovers p cut f (skipEntryOf (f.sealedWith p cut b)) := by
  refine ⟨⟨0, ?_, .inl Nat.one_pos⟩, Nat.le_refl _, Nat.le_refl _, ?_, ?_⟩ <;>
    simp [skipEntryOf, Frame.sealedWith]

theorem skipCovers_takeIn {p : Plan} {cut : Nat} {b : Bool} {f : Frame} {e : SkipEntry}
    (h : e.precedes (f.sealedWith p cut b).number = true) :
    SkipCovers p cut f (e.takeIn (f.sealedWith p cut b)) := by
  have hnum : (f.sealedWith p cut b).number = f.number := Frame.closeAll_number p f
  rw [SkipEntry.precedes_iff, hnum] at h
  refine ⟨?_, ?_, ?_, ?_, ?_⟩
  · show ∃ i, f.number = e.first + BitVec.ofNat 32 i
      ∧ (i < min Config.max32 (e.count + 1) ∨ min Config.max32 (e.count + 1) = 4294967295)
    unfold Config.max32 at h ⊢
    rcases h with h | h
    · exact ⟨(f.number - e.first).toNat, by rw [BitVec.ofNat_toNat, BitVec.setWidth_eq]; bv_omega, .inr (by omega)⟩
    · exact ⟨e.count, h.symm, by omega⟩
  · show min 65535 (f.damaged + cut) ≤ min Config.max16 (e.damaged + min 65535 (f.damaged + cut))
    unfold Config.max16
    omega
  · show min 4294967295 (f.closeAll p).missing ≤ min Config.max32 (e.missing + (f.closeAll p).missing)
    unfold Config.max32
    omega
  · show (e.delivered ||| (f.closeAll p).delivered) ||| f.delivered = e.delivered ||| (f.closeAll p).delivered
    rw [Frame.closeAll_delivered, BitVec.or_assoc, BitVec.or_self]
  · intro hm
    show (e.markTaken || (f.closeAll p).markTaken) = true
    rw [Frame.closeAll_markTaken, hm, Bool.or_true]

/-- A slotless frame that joins the seal queue is covered by a skip entry of it (R120). -/
theorem skipCovers_appendSkip (p : Plan) (cut : Nat) (b : Bool) (f : Frame) (presented : Bool) (q : List QueueEntry) :
    ∃ x, .skip x ∈ appendSkip presented (f.sealedWith p cut b) q ∧ SkipCovers p cut f x := by
  have fresh := skipCovers_skipEntryOf p cut b f
  fun_induction appendSkip presented (f.sealedWith p cut b) q with
  | case1 => exact ⟨_, List.mem_singleton.mpr rfl, fresh⟩
  | case2 presented e h => exact ⟨_, List.mem_singleton.mpr rfl, skipCovers_takeIn (Bool.and_eq_true_iff.mp h).1⟩
  | case3 => exact ⟨_, List.mem_cons_of_mem _ (List.mem_singleton.mpr rfl), fresh⟩
  | case4 => exact ⟨_, List.mem_cons_of_mem _ (List.mem_singleton.mpr rfl), fresh⟩
  | case5 presented e e' rest ih =>
    obtain ⟨x, hx, hc⟩ := ih
    exact ⟨x, List.mem_cons_of_mem _ hx, hc⟩

/-! ### The slot entries of the seal queue -/

/-- The slot entry that a queue entry is; a skip entry is none. -/
def QueueEntry.entry? : QueueEntry → Option SlotEntry
  | .slot e => some e
  | .skip _ => none

/-- The slot entries of a seal queue, from the head on. -/
def slotEntries (q : List QueueEntry) : List SlotEntry := q.filterMap QueueEntry.entry?

theorem mem_slotEntries {q : List QueueEntry} {e : SlotEntry} : e ∈ slotEntries q ↔ .slot e ∈ q := by
  unfold slotEntries
  rw [List.mem_filterMap]
  constructor
  · rintro ⟨x, hx, he⟩
    cases x with
    | slot e' => cases he; exact hx
    | skip x => cases he
  · exact fun h => ⟨_, h, rfl⟩

/-- A slotless frame joins a skip entry, and leaves the slot entries alone (R120). -/
theorem slotEntries_appendSkip (presented : Bool) (f : Frame) (q : List QueueEntry) :
    slotEntries (appendSkip presented f q) = slotEntries q := by
  fun_induction appendSkip presented f q with
  | case5 presented e e' rest ih =>
    unfold slotEntries at ih ⊢
    rw [List.filterMap_cons, List.filterMap_cons (a := e), ih]
  | _ => rfl

/-- What the Patch Engine leaves of an entry: all but FILLED and the patch list (R133). -/
def SlotEntry.core (e : SlotEntry) : SlotEntry := { e with filled := false, patchList := none }

theorem sealedEntry_core {p : Plan} {st : FrameStatus} {cut : Nat} {f : Frame} {e e' : SlotEntry} (h : e'.core = e.core)
    (he : SealedEntry p st cut f e) : SealedEntry p st cut f e' := by
  have hc : SealedEntry p st cut f e'.core := h ▸ he
  exact hc

/-- No more frames are open, and every slot entry stays, but for what the Patch Engine changes in it. -/
structure SealsOn (s t : State) : Prop where
  frames  : t.table.openFrames.length ≤ s.table.openFrames.length
  entries : ∀ e ∈ slotEntries s.table.queue, ∃ e' ∈ slotEntries t.table.queue, e'.core = e.core

theorem SealsOn.of_queue {s t : State} (hf : t.table.openFrames.length ≤ s.table.openFrames.length)
    (hq : t.table.queue = s.table.queue) : SealsOn s t :=
  ⟨hf, fun e he => ⟨e, hq ▸ he, rfl⟩⟩

theorem SealsOn.rfl {s : State} : SealsOn s s := .of_queue (Nat.le_refl _) (Eq.refl _)

theorem SealsOn.trans {s t u : State} (h : SealsOn s t) (k : SealsOn t u) : SealsOn s u := by
  refine ⟨Nat.le_trans k.frames h.frames, fun e he => ?_⟩
  obtain ⟨e', he', hc⟩ := h.entries e he
  obtain ⟨e'', he'', hc'⟩ := k.entries e' he'
  exact ⟨e'', he'', hc'.trans hc⟩

/-! ### The steps of a seal (R115 to R117) -/

/-- What the mark-lost count's update changes: that count, and the latches (R64, R65). -/
theorem countMarkLost_eq (f : Frame) (s : State) :
    ∃ ls, countMarkLost f s = { s with
      reg := { s.reg with markLost := if f.markTaken then s.reg.markLost else min 255 (s.reg.markLost + 1) }
      report := { s.report with latches := ls } } := by
  unfold countMarkLost
  by_cases hm : f.markTaken = true
  · simp only [if_pos hm]
    exact ⟨s.report.latches, rfl⟩
  · simp only [if_neg hm]
    split
    · exact ⟨_, rfl⟩
    · exact ⟨s.report.latches, rfl⟩

/-- The state once the oldest frame has left the list, before it joins the seal queue: its lines in flight are cut, the timer
for it stopped, and the mark-lost count updated. -/
def withoutOldest (f : Frame) (rest : List Frame) (latches : Vector Latch 52) (s : State) : State :=
  { s with
    lanes := cutLanes f.number s.lanes
    reg := { s.reg with markLost := if f.markTaken then s.reg.markLost else min 255 (s.reg.markLost + 1) }
    report := { s.report with latches := latches }
    table := { s.table with openFrames := rest, sealTimer := s.table.sealTimer.stopFor f.number } }

theorem sealFrame_eq (cause : SealCause) (f : Frame) (rest : List Frame) (s : State) :
    ∃ ls, sealFrame cause f rest s = enqueueSealed cause (sealedFrame s f) (withoutOldest f rest ls s) := by
  unfold sealFrame
  dsimp only
  obtain ⟨ls, h⟩ := countMarkLost_eq (sealedFrame s f) { s with
    lanes := cutLanes f.number s.lanes
    table := { s.table with openFrames := rest, sealTimer := s.table.sealTimer.stopFor f.number } }
  refine ⟨ls, ?_⟩
  rw [h, show (sealedFrame s f).markTaken = f.markTaken from Frame.closeAll_markTaken _ f]
  rfl

/-- A frame with a slot that seals by the timer: its entry is the last of the queue, and its slot is handed on (R117). -/
theorem enqueueSealed_timer {f : Frame} {k : Fin 32} {s : State} {patched : Bool} (hk : f.slot = some k)
    (hp : patched = (s.livePlan.run.patchEnable && !f.runs.isEmpty)) :
    enqueueSealed .timer f s = { s with table := { s.table with
      queue := s.table.queue ++ [.slot (slotEntryOf f k .timedOut patched)]
      slots := s.table.slots.set k (if patched then .patching else .ready) } } := by
  have hst : sealStatus .timer f = .timedOut := by simp [sealStatus, hk]
  unfold enqueueSealed
  rw [hk]
  dsimp only
  rw [hst, hp]
  simp [setSlot]

/-- A slotless frame that seals joins a skip entry (R120). -/
theorem enqueueSealed_slotless {f : Frame} (cause : SealCause) {s : State} (hk : f.slot = none) :
    enqueueSealed cause f s = { s with table := { s.table with
      queue := appendSkip s.report.framePresented f s.table.queue } } := by
  unfold enqueueSealed
  rw [hk]

theorem enqueueSealed_sealsOn (cause : SealCause) (f : Frame) (s : State) : SealsOn s (enqueueSealed cause f s) := by
  cases hk : f.slot with
  | none =>
    rw [enqueueSealed_slotless cause hk]
    refine ⟨Nat.le_refl _, fun e he => ⟨e, ?_, rfl⟩⟩
    show e ∈ slotEntries (appendSkip _ f s.table.queue)
    rwa [slotEntries_appendSkip]
  | some k =>
    unfold enqueueSealed
    rw [hk]
    refine ⟨Nat.le_refl _, fun e he => ⟨e, ?_, rfl⟩⟩
    exact mem_slotEntries.mpr (List.mem_append_left _ (mem_slotEntries.mp he))

/-- The oldest of the open frames may have its N fixed before it seals; with a younger one open, or with N fixed already, the
registration stays (R115 step 1). -/
theorem fixIfOnly_cases {s : State} {f : Frame} {rest : List Frame} (h : s.table.openFrames = f :: rest) :
    ∃ b r, fixIfOnly s
        = { s with table := { s.table with openFrames := { f with fixed := b } :: rest }, reg := r }
      ∧ ((f.fixed = true ∨ rest ≠ []) → r = s.reg) := by
  have same : s = { s with
      table := { s.table with openFrames := { f with fixed := f.fixed } :: rest }, reg := s.reg } := by
    rw [show ({ f with fixed := f.fixed } : Frame) = f from rfl, ← h]
  unfold fixIfOnly
  rw [h]
  cases rest with
  | cons g rest => exact ⟨f.fixed, s.reg, same, fun _ => rfl⟩
  | nil =>
    dsimp only
    rcases fixNewest_cases s with e | ⟨older, g, ho, hg, e⟩
    · exact ⟨f.fixed, s.reg, e.trans same, fun _ => rfl⟩
    · obtain ⟨rfl, rfl⟩ : older = [] ∧ g = f := by
        rw [h] at ho
        cases older with
        | nil => exact ⟨rfl, (List.cons.inj ho).1.symm⟩
        | cons a l => simp at ho
      refine ⟨true, _, e, fun hx => ?_⟩
      rcases hx with hx | hx
      · rw [hg] at hx; cases hx
      · exact absurd rfl hx

theorem sealOldest_nil (cause : SealCause) {s : State} (h : s.table.openFrames = []) : sealOldest cause s = s := by
  unfold sealOldest fixIfOnly
  rw [h]
  dsimp only
  rw [h]

theorem sealOldest_cons (cause : SealCause) {s : State} {f : Frame} {rest : List Frame}
    (h : s.table.openFrames = f :: rest) :
    ∃ b r, sealOldest cause s = sealFrame cause { f with fixed := b } rest
        { s with table := { s.table with openFrames := { f with fixed := b } :: rest }, reg := r }
      ∧ ((f.fixed = true ∨ rest ≠ []) → r = s.reg) := by
  obtain ⟨b, r, he, hr⟩ := fixIfOnly_cases h
  refine ⟨b, r, ?_, hr⟩
  unfold sealOldest
  rw [he]

theorem sealOldest_sealsOn (cause : SealCause) (s : State) : SealsOn s (sealOldest cause s) := by
  cases h : s.table.openFrames with
  | nil => rw [sealOldest_nil cause h]; exact .rfl
  | cons f rest =>
    obtain ⟨b, r, he, -⟩ := sealOldest_cons cause h
    obtain ⟨ls, hf⟩ := sealFrame_eq cause { f with fixed := b } rest
      { s with table := { s.table with openFrames := { f with fixed := b } :: rest }, reg := r }
    rw [he, hf]
    have hw (u : State) (hq : u.table.queue = s.table.queue) : SealsOn s (withoutOldest { f with fixed := b } rest ls u) :=
      .of_queue (by rw [h]; exact Nat.le_succ _) hq
    exact (hw _ (by exact rfl)).trans (enqueueSealed_sealsOn _ _ _)

/-! ### What follows a seal (R118, R129, R176) -/

theorem laneOff_sealsOn (n : Lane) (s : State) : SealsOn s (laneOff n s) := by
  obtain ⟨fs, h, hl⟩ := cutLine_frames n s
  unfold laneOff
  rw [h]
  exact .of_queue (Nat.le_of_eq hl) rfl

theorem lanesOff_sealsOn (s : State) : SealsOn s (lanesOff s) := by
  unfold lanesOff
  generalize allLanes = l
  induction l generalizing s with
  | nil => exact .rfl
  | cons n l ih => exact (laneOff_sealsOn n s).trans (ih _)

theorem singleEnd_sealsOn (s : State) : SealsOn s (singleEnd s) := by
  unfold singleEnd
  split
  · have h (c : Capture) : SealsOn s { s with capture := c } := .of_queue (Nat.le_refl _) rfl
    exact (h _).trans (lanesOff_sealsOn _)
  · exact .rfl

theorem loadSealTimer_sealsOn (s : State) : SealsOn s (loadSealTimer s) := by
  obtain ⟨t, h⟩ := loadSealTimer_cases s
  rw [h]
  exact .of_queue (Nat.le_refl _) rfl

theorem cascade_sealsOn (fuel : Nat) (s : State) : SealsOn s (cascade fuel s) := by
  induction fuel generalizing s with
  | zero => exact .rfl
  | succ n ih =>
    unfold cascade
    split
    · refine SealsOn.trans ?_ (ih _)
      exact (sealOldest_sealsOn _ s).trans ((singleEnd_sealsOn _).trans (loadSealTimer_sealsOn _))
    · exact .rfl

theorem onSlotEntry_core (k : Fin 32) (e : SlotEntry) :
    ∃ e', onSlotEntry k (fun e => { e with filled := true, patchList := none }) (.slot e) = .slot e'
      ∧ e'.core = e.core := by
  unfold onSlotEntry
  dsimp only
  split
  · exact ⟨_, rfl, rfl⟩
  · exact ⟨e, rfl, rfl⟩

theorem finishPatch_sealsOn (k : Fin 32) (s : State) : SealsOn s (finishPatch k s) := by
  refine ⟨Nat.le_refl _, fun e he => ?_⟩
  obtain ⟨e', h, hc⟩ := onSlotEntry_core k e
  exact ⟨e', mem_slotEntries.mpr (List.mem_map.mpr ⟨_, mem_slotEntries.mp he, h⟩), hc⟩

theorem takeUpEach_sealsOn (fuel : Nat) (s : State) : SealsOn s (takeUpEach fuel s) := by
  induction fuel generalizing s with
  | zero => exact .rfl
  | succ n ih =>
    unfold takeUpEach
    split
    · exact .rfl
    · split
      · exact .rfl
      · split
        · exact .of_queue (Nat.le_refl _) rfl
        · exact (finishPatch_sealsOn _ s).trans (ih _)

/-- The completion of a drain changes capture control, the Report Unit and the pending command alone (R176). -/
theorem drainTest_table (s : State) : (drainTest s).table = s.table := by
  unfold drainTest completeDrain answerStop
  split
  · dsimp only
    split
    · split <;> rfl
    · rfl
    · rfl
  · rfl

theorem settle_sealsOn (s : State) : SealsOn s (settle s) := by
  refine (takeUpEach_sealsOn s.table.queue.length s).trans (.of_queue ?_ ?_) <;>
  · unfold settle
    rw [drainTest_table]
    rfl

theorem present_table (s : State) : (present s).table = s.table := by
  rw [(present_chosen s).only]

theorem present_sealsOn (s : State) : SealsOn s (present s) :=
  .of_queue (by rw [present_table]) (by rw [present_table])

/-- What follows a seal, with the end of the step, keeps the entries that the seal left. -/
theorem sealWithCascade_sealsOn (cause : SealCause) (s : State) :
    SealsOn (sealOldest cause s) (present (settle (sealWithCascade cause s))) :=
  (singleEnd_sealsOn _).trans ((loadSealTimer_sealsOn _).trans
    ((cascade_sealsOn _ _).trans ((settle_sealsOn _).trans (present_sealsOn _))))

end Sys2Proof.Machine
end

section
/-! The Patch Engine and a frame that has just sealed (R117, R127 to R133): which position of a patch list is worked first,
and what the take-up at the end of the step makes of the frame's entry and slot. -/

namespace Sys2Proof.Machine

/-! ### The first position that fills something (R130, R132) -/

section
variable {p : StaticPlan} {slot : Fin 32}

theorem nextInRun_none {r : Run} {fuel i : Nat} (h : nextInRun p slot r fuel i = none) (j : Nat) (hi : i ≤ j)
    (hj : j < i + fuel) : r.target p slot j = none := by
  induction fuel generalizing i with
  | zero => omega
  | succ n ih =>
    unfold nextInRun at h
    split at h
    · cases h
    · rename_i ht
      rcases Nat.eq_or_lt_of_le hi with rfl | hlt
      · exact ht
      · exact ih h hlt (by omega)

theorem nextInRun_some {r : Run} {fuel i j : Nat} {t : Fin 4 × Nat} (h : nextInRun p slot r fuel i = some (j, t)) :
    j < i + fuel ∧ r.target p slot j = some t ∧ ∀ m, i ≤ m → m < j → r.target p slot m = none := by
  induction fuel generalizing i with
  | zero => cases h
  | succ n ih =>
    unfold nextInRun at h
    split at h
    · rename_i ht
      cases h
      exact ⟨by omega, ht, fun m h1 h2 => absurd h2 (by omega)⟩
    · rename_i ht
      obtain ⟨hj, htj, hbelow⟩ := ih h
      refine ⟨by omega, htj, fun m h1 h2 => ?_⟩
      rcases Nat.eq_or_lt_of_le h1 with rfl | hlt
      · exact ht
      · exact hbelow m hlt h2

theorem nextInRuns_none {runs : List Run} {index : Nat} (h : nextInRuns p slot index runs = none) :
    NothingToFill p slot runs := by
  induction runs generalizing index with
  | nil => exact nofun
  | cons r rest ih =>
    unfold nextInRuns at h
    split at h
    · cases h
    · rename_i hr
      intro x hx i hi
      rcases List.mem_cons.mp hx with rfl | hx
      · exact nextInRun_none hr i (Nat.zero_le i) (by omega)
      · exact ih h x hx i hi

/-- The first position of the runs that fills something, with the context that works it (R132 steps 2 and 3). -/
theorem nextInRuns_some {runs : List Run} {index : Nat} {w : PatchWork} (h : nextInRuns p slot index runs = some w) :
    ∃ (j i : Nat) (r : Run) (plane : Fin 4) (segment : Nat),
      runs[j]? = some r ∧ i < r.count ∧ r.target p slot i = some (plane, segment)
        ∧ (∀ m, m < i → r.target p slot m = none) ∧ NothingToFill p slot (runs.take j)
        ∧ w = { slot := slot, runIndex := index + j, posIndex := i, plane := plane, byteOffset := 0,
                waiting := some (fillWrite p r.lane plane segment 0) } := by
  induction runs generalizing index with
  | nil => cases h
  | cons r rest ih =>
    unfold nextInRuns at h
    split at h
    · rename_i i plane segment hr
      cases h
      obtain ⟨hi, ht, hbelow⟩ := nextInRun_some hr
      exact ⟨0, i, r, plane, segment, rfl, by omega, ht, fun m hm => hbelow m (Nat.zero_le m) hm, nofun, rfl⟩
    · rename_i hr
      obtain ⟨j, i, r', plane, segment, hj, hi, ht, hbelow, hnone, hw⟩ := ih h
      refine ⟨j + 1, i, r', plane, segment, hj, hi, ht, hbelow, ?_, by rw [hw, Nat.add_right_comm, Nat.add_assoc]⟩
      intro x hx m hm
      rcases List.mem_cons.mp (List.take_succ_cons ▸ hx) with rfl | hx
      · exact nextInRun_none hr m (Nat.zero_le m) (by omega)
      · exact hnone x hx m hm

theorem fillBytes_length (pixelBytes value len : Nat) : (fillBytes pixelBytes value len).length = len := by
  simp [fillBytes]

theorem fillBytes_pattern (plane : Fin 4) (len : Nat) :
    FillPattern p plane (fillBytes p.pixelBytes p.planes[plane].fill len) := by
  intro i hi
  rw [fillBytes_length] at hi
  simp [fillBytes, List.getElem?_range hi]

/-- The context that the take-up sets works the first position from its first fill write on (R128, R131). -/
theorem takenUp_of_nextInRuns {runs : List Run} {w : PatchWork} (h : nextInRuns p slot 0 runs = some w) :
    TakenUp p slot runs (.active w) := by
  obtain ⟨j, i, r, plane, segment, hj, hi, ht, hbelow, hnone, rfl⟩ := nextInRuns_some h
  refine ⟨j, i, r, plane, segment, hj, hi, ht, hbelow, hnone, _, ?_, fillBytes_length _ _ _, fillBytes_pattern plane _⟩
  rw [Nat.zero_add]
  rfl

end

/-! ### The take-up (R129) -/

theorem firstPatching_none_iff {t : FrameTable} :
    firstPatching t = none ↔ ∀ e, .slot e ∈ t.queue → t.slots[e.slot] ≠ .patching := by
  unfold firstPatching
  rw [List.findSome?_eq_none_iff]
  constructor
  · intro h e he hp
    have := h _ he
    simp [hp] at this
  · intro h x hx
    cases x with
    | slot e => exact if_neg (h e hx)
    | skip x => rfl

/-- With no PATCHING entry before it, the tail entry is the first PATCHING one, if it is one. -/
theorem firstPatching_tail {t : FrameTable} {q : List QueueEntry} {e : SlotEntry} (ht : t.queue = q ++ [.slot e])
    (hq : ∀ e', .slot e' ∈ q → t.slots[e'.slot] ≠ .patching) :
    firstPatching t = if t.slots[e.slot] = .patching then some e else none := by
  have hnone := (firstPatching_none_iff (t := { t with queue := q })).mpr hq
  unfold firstPatching at hnone ⊢
  rw [ht, List.findSome?_append, hnone, Option.none_or, List.findSome?_cons]
  by_cases hp : t.slots[e.slot] = .patching
  · simp only [if_pos hp]
  · simp only [if_neg hp, List.findSome?_nil]

theorem takeUpEach_active {w : PatchWork} {s : State} (fuel : Nat) (h : s.patch = .active w) : takeUpEach fuel s = s := by
  cases fuel with
  | zero => rfl
  | succ n =>
    unfold takeUpEach
    rw [h]

theorem takeUpEach_none {s : State} (fuel : Nat) (h : s.patch = .idle) (hn : firstPatching s.table = none) :
    takeUpEach fuel s = s := by
  cases fuel with
  | zero => rfl
  | succ n =>
    unfold takeUpEach
    rw [h]
    dsimp only
    rw [hn]

theorem takeUp_active {w : PatchWork} {s : State} (h : s.patch = .active w) : takeUp s = s := takeUpEach_active _ h

theorem takeUp_none {s : State} (h : s.patch = .idle) (hn : firstPatching s.table = none) : takeUp s = s :=
  takeUpEach_none _ h hn

/-- With the tail entry alone PATCHING, an IDLE context takes it up. -/
theorem takeUp_tail_some {s : State} {q : List QueueEntry} {e : SlotEntry} {w : PatchWork} (h : s.patch = .idle)
    (ht : s.table.queue = q ++ [.slot e]) (hf : firstPatching s.table = some e)
    (hn : nextInRuns s.livePlan.static e.slot 0 (e.patchList.getD []) = some w) :
    takeUp s = { s with patch := .active w } := by
  simp only [takeUp, ht, List.length_append, List.length_singleton, takeUpEach, h, hf, hn]

/-- The tail entry, none of whose positions fills anything, completes at once. -/
theorem takeUp_tail_none {s : State} {q : List QueueEntry} {e : SlotEntry} (h : s.patch = .idle)
    (ht : s.table.queue = q ++ [.slot e]) (hf : firstPatching s.table = some e)
    (hn : nextInRuns s.livePlan.static e.slot 0 (e.patchList.getD []) = none) :
    takeUp s = takeUpEach q.length (finishPatch e.slot s) := by
  simp only [takeUp, ht, List.length_append, List.length_singleton, takeUpEach, h, hf, hn]

/-- The completion of the tail entry's patching (R133). -/
theorem finishPatch_tail {s : State} {q : List QueueEntry} {e : SlotEntry} (ht : s.table.queue = q ++ [.slot e])
    (hq : ∀ e', .slot e' ∈ q → e'.slot ≠ e.slot) :
    finishPatch e.slot s = { s with
      patch := .idle
      table := { s.table with
        queue := q ++ [.slot { e with filled := true, patchList := none }]
        slots := s.table.slots.set e.slot .ready } } := by
  have hmap : (q.map (onSlotEntry e.slot fun e => { e with filled := true, patchList := none })) = q := by
    refine (List.map_congr_left fun x hx => ?_).trans (List.map_id q)
    cases x with
    | slot e' => exact if_neg (hq e' hx)
    | skip x => rfl
  unfold finishPatch
  rw [ht, List.map_append, hmap]
  simp [setSlot, onSlotEntry]

/-- What a take-up makes of a frame that has just joined the tail of the seal queue, with its slot PATCHING and its patch
list when it is to be patched, and READY else. -/
theorem takeUp_handedOn {u : State} {f : Frame} {q : List QueueEntry} {e : SlotEntry} {patched : Bool}
    (hp : patched = (u.livePlan.run.patchEnable && !(f.closeAll u.livePlan).runs.isEmpty))
    (ht : u.table.queue = q ++ [.slot e]) (hq : ∀ e', .slot e' ∈ q → e'.slot ≠ e.slot)
    (hidle : u.patch = .idle → ∀ e', .slot e' ∈ q → u.table.slots[e'.slot] ≠ .patching)
    (hs : u.table.slots[e.slot] = if patched then .patching else .ready)
    (hl : e.patchList = if patched then some (f.closeAll u.livePlan).runs else none) (hf : e.filled = false) :
    ∃ e' c sl, takeUp u = { u with patch := c, table := { u.table with
        queue := q ++ [.slot e'], slots := u.table.slots.set e.slot sl } }
      ∧ e'.core = e.core ∧ HandedOn u.livePlan f e' sl u.patch c := by
  have patched_iff : patched = true ↔ u.livePlan.run.patchEnable = true ∧ (f.closeAll u.livePlan).runs ≠ [] := by
    rw [hp]; simp
  have unchanged : u = { u with patch := u.patch, table := { u.table with
      queue := q ++ [.slot e], slots := u.table.slots.set e.slot u.table.slots[e.slot] } } := by
    rw [Fin.getElem_fin, Vector.set_getElem_self, ← ht]
  cases hpatched : patched with
  | false =>
    rw [hpatched] at hs hl
    have hno : ¬(u.livePlan.run.patchEnable = true ∧ (f.closeAll u.livePlan).runs ≠ []) := by
      rw [← patched_iff, hpatched]; exact nofun
    have same : takeUp u = u := by
      cases hc : u.patch with
      | active w => exact takeUp_active hc
      | idle =>
        refine takeUp_none hc ?_
        rw [firstPatching_tail ht (hidle hc), hs]
        rfl
    refine ⟨e, u.patch, u.table.slots[e.slot], same.trans unchanged, rfl, ?_⟩
    exact ⟨fun _ => ⟨hs, hf, hl, rfl⟩, fun h => absurd h hno, fun h => absurd h hno, fun h => absurd h hno⟩
  | true =>
    rw [hpatched] at hs hl
    have hyes := patched_iff.mp hpatched
    cases hc : u.patch with
    | active w =>
      refine ⟨e, u.patch, u.table.slots[e.slot], (takeUp_active hc).trans unchanged, rfl, ?_⟩
      exact ⟨fun h => absurd hyes h, fun _ _ => ⟨⟨hs, hf, hl⟩, hc⟩, nofun, nofun⟩
    | idle =>
      have hfirst : firstPatching u.table = some e := by
        rw [firstPatching_tail ht (hidle hc), hs]
        rfl
      have hruns : e.patchList.getD [] = (f.closeAll u.livePlan).runs := by rw [hl]; rfl
      cases hn : nextInRuns u.livePlan.static e.slot 0 (f.closeAll u.livePlan).runs with
      | some w =>
        have hsome : ¬NothingToFill u.livePlan.static e.slot (f.closeAll u.livePlan).runs := by
          obtain ⟨j, i, r, plane, segment, hj, hi, htarget, -⟩ := nextInRuns_some hn
          intro h
          rw [h r (List.mem_of_getElem? hj) i hi] at htarget
          cases htarget
        have htake := takeUp_tail_some hc ht hfirst (hruns ▸ hn)
        refine ⟨e, .active w, u.table.slots[e.slot],
          htake.trans (congrArg (fun v : State => { v with patch := .active w }) unchanged), rfl, ?_⟩
        exact ⟨fun h => absurd hyes h, fun _ h => absurd rfl h,
          fun _ _ _ => ⟨⟨hs, hf, hl⟩, takenUp_of_nextInRuns hn⟩, fun _ _ h => absurd h hsome⟩
      | none =>
        have htake' : takeUp u = finishPatch e.slot u := by
          have hdone : firstPatching (finishPatch e.slot u).table = none := by
            rw [finishPatch_tail ht hq, firstPatching_tail rfl]
            · simp
            · intro e' he'
              have hne : (e.slot : Nat) ≠ e'.slot := fun h => hq e' he' (Fin.ext h.symm)
              simpa [Vector.getElem_set_ne _ _ hne] using hidle hc e' he'
          exact (takeUp_tail_none hc ht hfirst (hruns ▸ hn)).trans (takeUpEach_none _ rfl hdone)
        refine ⟨_, _, _, htake'.trans (finishPatch_tail ht hq), rfl, ?_⟩
        exact ⟨fun h => absurd hyes h, fun _ h => absurd rfl h, fun _ _ h => absurd (nextInRuns_none hn) h,
          fun _ _ _ => ⟨rfl, rfl, rfl, rfl⟩⟩

end Sys2Proof.Machine
end

section
/-! The expiry of the seal timer (R13, R103, R113, R115 to R118, R177): the line that counts as cut, the writes that are
withdrawn, the seal, and what follows it. -/

namespace Sys2Proof.Machine

/-! ### The line of the held write (R103, R116; logs 23, 24) -/

/-- The lines that the seal by the timer cuts beside those in flight: the one that the held write completed, or none. -/
def heldCut (number : Count) (s : State) : Nat := if completedAndWaiting number s then 1 else 0

theorem cutHeldLine_eq (number : Count) (s : State) :
    cutHeldLine number s = { s with table := { s.table with
      openFrames := if completedAndWaiting number s then
          s.table.openFrames.map fun g => if g.number = number then g.damage else g
        else s.table.openFrames } } := by
  unfold cutHeldLine onFrame
  split <;> rfl

/-- The oldest frame counts the held write's line as damaged; younger frames of other numbers stay. -/
theorem cutHeldLine_frames {s : State} {f : Frame} {rest : List Frame} (h : s.table.openFrames = f :: rest) :
    ∃ d os, (cutHeldLine f.number s).table.openFrames = { f with damaged := d } :: os
      ∧ (∀ m, min 65535 (d + m) = min 65535 (f.damaged + (heldCut f.number s + m))) ∧ os.length = rest.length
      ∧ ((∀ g ∈ rest, g.number ≠ f.number) → os = rest) := by
  rw [cutHeldLine_eq, h]
  unfold heldCut
  by_cases hc : completedAndWaiting f.number s = true
  · simp only [if_pos hc, List.map_cons, if_true]
    refine ⟨_, _, rfl, fun m => ?_, List.length_map _, fun hr => ?_⟩
    · unfold Config.max16
      omega
    · exact (List.map_congr_left fun g hg => if_neg (hr g hg)).trans (List.map_id rest)
  · simp only [if_neg hc]
    exact ⟨f.damaged, rest, rfl, fun m => by rw [Nat.zero_add], rfl, fun _ => rfl⟩

/-- A lane's line was completed by the held write, and writes of it into the frame still wait. -/
theorem completedHeld_iff {number : Count} {s : State} {n : Lane} :
    s.completedHeld number n = true ↔ ∃ h, s.held = some h ∧ h.lane = some n
      ∧ h.derived.any (Derived.steersInto number) = true ∧ ∃ x, s.lanes[n].context = .complete x := by
  have hany (h : HeldRequest) : (h.derived.any fun d => decide (d.kind = .steer number))
      = h.derived.any (Derived.steersInto number) := rfl
  unfold State.completedHeld
  cases hh : s.held with
  | none => simp
  | some h => cases hc : s.lanes[n].context <;> simp_all

theorem completedAndWaiting_iff {number : Count} {s : State} :
    completedAndWaiting number s = true ↔ ∃ n, s.completedHeld number n = true := by
  simp only [completedHeld_iff]
  unfold completedAndWaiting
  cases hh : s.held with
  | none => simp
  | some h =>
    cases hl : h.lane with
    | none => simp [hl]
    | some n => cases hc : s.lanes[n].context <;> simp_all

/-- The lanes once the waiting writes are withdrawn: a line that the held write completed is DISCARDING, and every other lane
is as it was (R103, R116). -/
def WithdrawnLanes (number : Count) (s : State) (ls : Vector LaneTracker 8) : Prop :=
  ∀ n : Lane,
    (∀ x, s.lanes[n].context = .complete x → s.completedHeld number n = true →
      ls[n] = { s.lanes[n] with context := .discarding x })
    ∧ (s.completedHeld number n = false → ls[n] = s.lanes[n])

theorem completedHeld_unique {number : Count} {s : State} {n m : Lane} (hn : s.completedHeld number n = true)
    (hm : s.completedHeld number m = true) : n = m := by
  obtain ⟨h, hh, hl, -⟩ := completedHeld_iff.mp hn
  obtain ⟨h', hh', hl', -⟩ := completedHeld_iff.mp hm
  cases hh.symm.trans hh'
  exact Option.some.inj (hl.symm.trans hl')

/-- A withdrawal changes the held request and lanes alone (R13). -/
theorem withdraw_only (number : Count) (s : State) :
    withdraw number s = { s with held := (withdraw number s).held, lanes := (withdraw number s).lanes } := by
  unfold withdraw
  cases s.held with
  | none => rfl
  | some h =>
    dsimp only
    split
    · cases h.lane with
      | none => rfl
      | some n => dsimp only; split <;> rfl
    · rfl

theorem withdraw_lanes_none {number : Count} {s : State} (h : ∀ n, ¬s.completedHeld number n = true) :
    (withdraw number s).lanes = s.lanes := by
  unfold withdraw
  cases hh : s.held with
  | none => rfl
  | some r =>
    dsimp only
    split
    · rename_i ha
      cases hl : r.lane with
      | none => rfl
      | some n =>
        dsimp only
        split
        · rename_i x hx
          exact absurd (completedHeld_iff.mpr ⟨r, hh, hl, ha, x, hx⟩) (h n)
        · rfl
    · rfl

theorem withdraw_lanes_some {number : Count} {s : State} {n : Lane} {x : LineExtent}
    (h : s.completedHeld number n = true) (hx : s.lanes[n].context = .complete x) :
    (withdraw number s).lanes = s.lanes.set n { s.lanes[n] with context := .discarding x } := by
  obtain ⟨r, hh, hl, ha, -⟩ := completedHeld_iff.mp h
  simp only [withdraw, hh, if_pos ha, hl, hx]
  rfl

theorem withdraw_lanes (number : Count) (s : State) : WithdrawnLanes number s (withdraw number s).lanes := by
  by_cases hc : ∃ n, s.completedHeld number n = true
  · obtain ⟨n, hn⟩ := hc
    obtain ⟨r, hh, hl, ha, x, hx⟩ := completedHeld_iff.mp hn
    rw [withdraw_lanes_some hn hx]
    refine fun m => ⟨fun y hy hm => ?_, fun hm => ?_⟩
    · obtain rfl := completedHeld_unique hn hm
      cases hx.symm.trans hy
      exact Vector.getElem_set_self _
    · have hne : (n : Nat) ≠ m := fun e => by
        obtain rfl := Fin.ext e
        rw [hn] at hm
        cases hm
      exact Vector.getElem_set_ne _ _ hne
  · rw [withdraw_lanes_none fun n hn => hc ⟨n, hn⟩]
    exact fun n => ⟨fun _ _ hn => absurd ⟨n, hn⟩ hc, fun _ => rfl⟩

/-- The state in which the seal by the timer begins. -/
theorem atTimerSeal_eq (number : Count) {s : State} (hd : HoldsDerived s) :
    ∃ ls, WithdrawnLanes number s ls ∧ atTimerSeal number s = { s with
      held := s.heldWithout number
      lanes := ls
      table := { s.table with openFrames := (cutHeldLine number s).table.openFrames, sealTimer := .idle } } := by
  have hcut := cutHeldLine_eq number s
  have hdu : HoldsDerived (timerStopped (cutHeldLine number s)) := by rw [hcut]; exact hd
  refine ⟨(atTimerSeal number s).lanes, ?_, ?_⟩
  · have h := withdraw_lanes number (timerStopped (cutHeldLine number s))
    rw [hcut] at h
    unfold atTimerSeal
    rw [hcut]
    exact h
  · unfold atTimerSeal
    conv_lhs => rw [withdraw_only, withdraw_held hdu]
    rw [hcut]
    rfl

theorem WithdrawnLanes.only_context {number : Count} {s : State} {ls : Vector LaneTracker 8}
    (h : WithdrawnLanes number s ls) (n : Lane) : ls[n] = { s.lanes[n] with context := ls[n].context } := by
  cases hc : s.completedHeld number n with
  | false => rw [(h n).2 hc]
  | true =>
    obtain ⟨-, -, -, -, x, hx⟩ := completedHeld_iff.mp hc
    rw [(h n).1 x hx hc]

theorem WithdrawnLanes.takingInto {number : Count} {s : State} {ls : Vector LaneTracker 8}
    (h : WithdrawnLanes number s ls) (n : Lane) :
    ls[n].context.takingInto number = s.lanes[n].context.takingInto number := by
  cases hc : s.completedHeld number n with
  | false => rw [(h n).2 hc]
  | true =>
    obtain ⟨-, -, -, -, x, hx⟩ := completedHeld_iff.mp hc
    rw [(h n).1 x hx hc, hx]
    rfl

theorem countP_or_of_disjoint {α : Type} {q r : α → Bool} (h : ∀ a, q a = true → r a = false) (l : List α) :
    l.countP (fun a => q a || r a) = l.countP q + l.countP r := by
  induction l with
  | nil => rfl
  | cons a l ih =>
    simp only [List.countP_cons, ih]
    cases hq : q a with
    | false => simp only [Bool.false_or, Bool.false_eq_true, if_false]; omega
    | true => simp only [h a hq, Bool.true_or, if_true, Bool.false_eq_true, if_false]; omega

theorem countP_eq_lane (m : Lane) : (List.finRange 8).countP (fun n => decide (n = m)) = 1 := by
  revert m
  decide

theorem finRange_eight : List.finRange 8 = allLanes := by decide

/-- The lines that the seal cuts are those in flight and the one that the held write completed (R116). -/
theorem timerCuts_eq {number : Count} {s : State} {ls : Vector LaneTracker 8} (h : WithdrawnLanes number s ls) :
    s.timerCuts number = heldCut number s + linesInFlight number ls := by
  have hflight : linesInFlight number ls
      = ((List.finRange 8).filter fun n : Lane => s.lanes[n].context.takingInto number).length := by
    unfold linesInFlight
    rw [finRange_eight]
    exact congrArg List.length (List.filter_congr fun n _ => h.takingInto n)
  rw [hflight]
  unfold State.timerCuts heldCut
  by_cases hc : ∃ m, s.completedHeld number m = true
  · obtain ⟨m, hm⟩ := hc
    obtain ⟨-, -, -, -, x, hx⟩ := completedHeld_iff.mp hm
    have hheld (n : Lane) : s.completedHeld number n = decide (n = m) := by
      by_cases e : n = m
      · rw [e, hm, decide_eq_true rfl]
      · rw [decide_eq_false e, ← Bool.not_eq_true]
        exact fun hn => e (completedHeld_unique hn hm)
    have htaking : s.lanes[m].context.takingInto number = false := by rw [hx]; rfl
    rw [if_pos (completedAndWaiting_iff.mpr ⟨m, hm⟩)]
    simp only [hheld, ← List.countP_eq_length_filter]
    rw [countP_or_of_disjoint, countP_eq_lane, Nat.add_comm]
    intro n hn
    refine decide_eq_false fun e => ?_
    rw [e, htaking] at hn
    cases hn
  · have hheld (n : Lane) : s.completedHeld number n = false := by
      rw [← Bool.not_eq_true]
      exact fun hn => hc ⟨n, hn⟩
    rw [if_neg fun hw => hc (completedAndWaiting_iff.mp hw), Nat.zero_add]
    simp only [hheld, Bool.or_false]

end Sys2Proof.Machine
end

section
/-! SEAL_TIMER_EXPIRY (R113): the seal itself, and what the obligation says of it in CONTINUOUS mode, in SINGLE mode and in
every case. -/

namespace Sys2Proof.Machine

/-! ### The step as a whole -/

/-- The state after the expiry of the timer for a frame, before the port serves what waits. -/
def timerSealed (number : Count) (s : State) : State :=
  present (settle (sealWithCascade .timer (atTimerSeal number s)))

/-- The expiry of a running timer whose port is left held, or has nothing offered: the port then serves nothing (R2). -/
theorem exec_sealTimerExpiry {number : Count} {r : Nat} {s : State} (ht : s.table.sealTimer = .running number r)
    (hd : HoldsDerived s) (ho : s.heldWithout number = none → s.offered = []) :
    exec .sealTimerExpiry s = .next (timerSealed number s)
      ∧ (timerSealed number s).held = s.heldWithout number ∧ (timerSealed number s).offered = s.offered
      ∧ (timerSealed number s).memStream = s.memStream := by
  have hpath : Path (atTimerSeal number s) (timerSealed number s) :=
    (sealWithCascade_inner _ _).path.trans ((settle_inner _).path.trans (present_chosen _).path)
  obtain ⟨ls, -, hat⟩ := atTimerSeal_eq number hd
  have hheld : (timerSealed number s).held = s.heldWithout number := by rw [hpath.held, hat]
  have hoffered : (timerSealed number s).offered = s.offered := by rw [hpath.offered, hat]
  refine ⟨?_, hheld, hoffered, by rw [hpath.memStream, hat]⟩
  show Host.Outcome.next (sealTimerExpires s) = _
  rw [sealTimerExpires_running ht]
  refine congrArg Host.Outcome.next ?_
  show serve (timerSealed number s) = _
  cases hh : s.heldWithout number with
  | none => exact serve_none _ (hoffered.trans (ho hh))
  | some h => exact serve_held (by rw [hheld, hh]; rfl)

/-! ### The seal (R115 to R117) -/

/-- The state in which the frame that the timer sealed joins the seal queue: it has left the list of open frames, the writes
into it are withdrawn, and the lines into it are cut. -/
def timerLeft (f : Frame) (rest : List Frame) (lanes : Vector LaneTracker 8) (reg : Registration)
    (latches : Vector Latch 52) (s : State) : State :=
  { s with
    held := s.heldWithout f.number
    lanes := cutLanes f.number lanes
    reg := reg
    report := { s.report with latches := latches }
    table := { s.table with openFrames := rest, sealTimer := .idle } }

/-- The registration after the seal of a frame whose N was fixed before, or behind which another is open (R64, R115). -/
def Registration.afterSeal (f : Frame) (r : Registration) : Registration :=
  { r with markLost := if f.markTaken then r.markLost else min 255 (r.markLost + 1) }

/-- The seal by the timer of the oldest frame. -/
theorem sealOldest_timer {s : State} {f : Frame} {rest : List Frame} (h : s.table.openFrames = f :: rest)
    (hd : HoldsDerived s) :
    ∃ b os ls r latches, WithdrawnLanes f.number s ls ∧ os.length = rest.length
      ∧ ((∀ g ∈ rest, g.number ≠ f.number) → os = rest)
      ∧ ((f.fixed = true ∨ rest ≠ []) → r = s.reg.afterSeal f)
      ∧ sealOldest .timer (atTimerSeal f.number s)
        = enqueueSealed .timer (f.sealedWith s.livePlan (s.timerCuts f.number) b) (timerLeft f os ls r latches s) := by
  obtain ⟨ls, hls, hat⟩ := atTimerSeal_eq f.number hd
  obtain ⟨d, os, hfs, hdam, hlen, hrest⟩ := cutHeldLine_frames h
  rw [hfs] at hat
  have hos : os = [] ↔ rest = [] := by rw [← List.length_eq_zero_iff, hlen, List.length_eq_zero_iff]
  have hcuts : min 65535 (d + linesInFlight f.number ls) = min 65535 (f.damaged + s.timerCuts f.number) := by
    rw [timerCuts_eq hls]; exact hdam _
  obtain ⟨b, r, hb, hsame⟩ := sealOldest_cons (s := atTimerSeal f.number s) .timer (by rw [hat])
  obtain ⟨latches, hseal⟩ := sealFrame_eq .timer { { f with damaged := d } with fixed := b } os
    { atTimerSeal f.number s with
      table := { (atTimerSeal f.number s).table with openFrames := { { f with damaged := d } with fixed := b } :: os }
      reg := r }
  refine ⟨b, os, ls, r.afterSeal f, latches, hls, hlen, hrest, fun hx => ?_, ?_⟩
  · rw [hsame (hx.imp_right fun hr ho => hr (hos.mp ho)), hat]
  · rw [hb, hseal, sealedFrame_eq (f := f) (cut := s.timerCuts f.number) b (by rw [hat]; exact hcuts), hat]
    rfl

/-! ### In every case -/

/-- The oldest frame, with a slot, is in the seal queue as TIMED_OUT, and no frame has been opened (R108, R117). -/
theorem timerSealed_entry {s : State} {f : Frame} {rest : List Frame} {k : Fin 32}
    (h : s.table.openFrames = f :: rest) (hd : HoldsDerived s) (hk : f.slot = some k) :
    (timerSealed f.number s).table.openFrames.length ≤ rest.length
      ∧ ∃ e, .slot e ∈ (timerSealed f.number s).table.queue
        ∧ SealedEntry s.livePlan .timedOut (s.timerCuts f.number) f e := by
  obtain ⟨b, os, ls, r, latches, -, hlen, -, -, hseal⟩ := sealOldest_timer h hd
  have hslot : (f.sealedWith s.livePlan (s.timerCuts f.number) b).slot = some k := (Frame.sealedWith_slot _ _ b f).trans hk
  rw [enqueueSealed_timer hslot rfl] at hseal
  have hon : SealsOn (sealOldest .timer (atTimerSeal f.number s)) (timerSealed f.number s) :=
    sealWithCascade_sealsOn .timer _
  rw [hseal] at hon
  refine ⟨Nat.le_trans hon.frames (Nat.le_of_eq hlen), ?_⟩
  obtain ⟨e, he, hc⟩ := hon.entries _ (mem_slotEntries.mpr (List.mem_append_right _ (List.mem_singleton.mpr rfl)))
  exact ⟨e, mem_slotEntries.mp he, sealedEntry_core hc (sealedEntry_slotEntryOf _ b _ _ hk)⟩

end Sys2Proof.Machine
end

section
/-! What follows the seal by the timer (R109, R112, R118, R129, R176, R177), and the obligation. -/

namespace Sys2Proof.Machine

/-! ### The end of the step -/

/-- The frame that the timer sealed stands at the tail of the seal queue with its slot, and the step has yet to let the Patch
Engine take up work: what the take-up makes of it. -/
theorem takeUp_afterTimer {s u : State} {f : Frame} {k : Fin 32} {cut : Nat} {b patched : Bool} (hquiet : Quiet s)
    (hk : f.slot = some k) (hne : ∀ e, .slot e ∈ s.table.queue → e.slot ≠ k) (hplan : u.plan = s.plan)
    (hpatch : u.patch = s.patch)
    (hp : patched = (s.livePlan.run.patchEnable && !(f.closeAll s.livePlan).runs.isEmpty))
    (hqueue : u.table.queue = s.table.queue ++ [.slot (slotEntryOf (f.sealedWith s.livePlan cut b) k .timedOut patched)])
    (hslots : u.table.slots = s.table.slots.set k (if patched then .patching else .ready)) :
    ∃ e c sl, takeUp u = { u with patch := c, table := { u.table with
        queue := s.table.queue ++ [.slot e], slots := s.table.slots.set k sl } }
      ∧ SealedEntry s.livePlan .timedOut cut f e ∧ HandedOn s.livePlan f e sl s.patch c := by
  have hlive : u.livePlan = s.livePlan := by unfold State.livePlan; rw [hplan]
  have hidle : u.patch = .idle → ∀ e', .slot e' ∈ s.table.queue → u.table.slots[e'.slot] ≠ .patching := by
    intro hi e' he'
    have hne' : (k : Nat) ≠ e'.slot := fun h => hne e' he' (Fin.ext h.symm)
    rw [hslots, Fin.getElem_fin, Vector.getElem_set_ne _ _ hne']
    exact firstPatching_none_iff.mp (hquiet.1 (hpatch ▸ hi)) e' he'
  obtain ⟨e, c, sl, htake, hcore, hand⟩ := takeUp_handedOn (u := u) (f := f) (q := s.table.queue)
    (e := slotEntryOf (f.sealedWith s.livePlan cut b) k .timedOut patched) (patched := patched) (by rw [hlive, hp]) hqueue
    hne hidle (by rw [hslots]; exact Vector.getElem_set_self _) (by rw [hlive]; rfl) rfl
  rw [hlive, hpatch] at hand
  refine ⟨e, c, sl, ?_, sealedEntry_core hcore (sealedEntry_slotEntryOf cut b patched .timedOut hk), hand⟩
  rw [htake, hslots]
  show ({ u with patch := c, table := { u.table with
    queue := s.table.queue ++ [.slot e], slots := (s.table.slots.set k _).set k sl } } : State) = _
  rw [Vector.set_set]

/-- A slotless frame that joins the seal queue gives the Patch Engine nothing to take up. -/
theorem takeUp_appendSkip {s u : State} {f : Frame} {presented : Bool} (hquiet : Quiet s) (hpatch : u.patch = s.patch)
    (hqueue : u.table.queue = appendSkip presented f s.table.queue) (hslots : u.table.slots = s.table.slots) :
    takeUp u = u := by
  cases hc : u.patch with
  | active w => exact takeUp_active hc
  | idle =>
    refine takeUp_none hc (firstPatching_none_iff.mpr fun e he => ?_)
    rw [hqueue, ← mem_slotEntries, slotEntries_appendSkip, mem_slotEntries] at he
    rw [hslots]
    exact firstPatching_none_iff.mp (hquiet.1 (hpatch ▸ hc)) e he

theorem drainTest_open {s : State} (h : s.table.openFrames ≠ []) : drainTest s = s := by
  unfold drainTest
  exact if_neg fun hx => h hx.2.1

/-! ### CONTINUOUS mode -/

/-- The next frame is awaited: the seal test does not hold of it (R110). -/
theorem sealTest_awaited {s : State} {o : Frame} {rest : List Frame} (h : s.table.openFrames = o :: rest)
    (ha : Awaited none s o) : sealTest s = false := by
  unfold sealTest
  rw [h]
  dsimp only
  rcases ha with hf | ⟨m, -, hen, hst, hpassed⟩
  · rw [hf, Bool.false_and]
  · have : lanesPassed s o = false := by
      rw [← Bool.not_eq_true]
      intro hall
      have hm := List.all_eq_true.mp hall m (mem_allLanes m)
      simp only [Plan.enabled, hen, hst, hpassed, decide_true, Bool.and_self, Bool.not_true, Bool.or_self] at hm
      cases hm
    rw [this, Bool.and_false]

theorem evalSealTest_of_not {s : State} (h : sealTest s = false) : evalSealTest s = s := by
  unfold evalSealTest
  cases s.table.openFrames.length with
  | zero => rfl
  | succ n =>
    unfold cascade
    rw [h]
    rfl

/-- In CONTINUOUS mode, with the next frame awaited, the seal leaves only the timer to load (R112, R118). -/
theorem sealWithCascade_awaited {a u : State} {o : Frame} {rest : List Frame} (hseal : sealOldest .timer a = u)
    (hopen : u.table.openFrames = o :: rest) (hmode : u.capture.mode = .continuous) (htimer : u.table.sealTimer = .idle)
    (ha : Awaited none u o) :
    sealWithCascade .timer a
      = { u with table := { u.table with sealTimer := timerOnceSeen false u.livePlan.run o .idle } } := by
  have hsingle : singleEnd u = u := by
    unfold singleEnd
    refine if_neg fun hx => ?_
    rw [hmode] at hx
    cases hx.2
  unfold sealWithCascade sealAndTurn
  rw [hseal, hsingle, loadSealTimer_eq hopen, htimer]
  exact evalSealTest_of_not (sealTest_awaited hopen ha)

theorem WithdrawnLanes.cut_state {number : Count} {s : State} {ls : Vector LaneTracker 8}
    (h : WithdrawnLanes number s ls) (n : Lane) : (cutLanes number ls)[n].state = s.lanes[n].state := by
  have := congrArg LaneTracker.state (h.only_context n)
  simpa [cutLanes] using this

/-- The step ends with the Report Unit's choice (log 7). -/
theorem timerSealed_eq {number : Count} {s w : State} (h : settle (sealWithCascade .timer (atTimerSeal number s)) = w) :
    timerSealed number s = { w with report := (timerSealed number s).report } := by
  unfold timerSealed
  rw [h]
  exact (present_chosen w).only

/-- What the expiry leaves in CONTINUOUS mode with a younger frame open that is awaited. -/
theorem timerSealed_continuous {s : State} {f o : Frame} {rest : List Frame} (hquiet : Quiet s) (hd : HoldsDerived s)
    (h : s.table.openFrames = f :: o :: rest) (hmode : s.capture.mode = .continuous) (ha : Awaited none s o)
    (hnum : ∀ g ∈ o :: rest, g.number ≠ f.number) (hne : ∀ e, .slot e ∈ s.table.queue → f.slot ≠ some e.slot) :
    ∃ ls report queue slots c, WithdrawnLanes f.number s ls
      ∧ timerSealed f.number s = { s with
          held := s.heldWithout f.number
          lanes := cutLanes f.number ls
          reg := s.reg.afterSeal f
          report := report
          patch := c
          table := { s.table with openFrames := o :: rest, sealTimer := timerOnceSeen false s.livePlan.run o .idle,
                                  queue := queue, slots := slots } }
      ∧ (∀ k, f.slot = some k → ∃ e sl, slots = s.table.slots.set k sl ∧ queue = s.table.queue ++ [.slot e]
          ∧ SealedEntry s.livePlan .timedOut (s.timerCuts f.number) f e ∧ HandedOn s.livePlan f e sl s.patch c)
      ∧ (f.slot = none → slots = s.table.slots ∧ c = s.patch
          ∧ ∃ x, .skip x ∈ queue ∧ SkipCovers s.livePlan (s.timerCuts f.number) f x) := by
  obtain ⟨b, os, ls, r, latches, hls, -, hos, hr, hseal⟩ := sealOldest_timer h hd
  obtain rfl := hos hnum
  obtain rfl := hr (.inr (List.cons_ne_nil _ _))
  have hdone := Frame.sealedWith_slot s.livePlan (s.timerCuts f.number) b f
  have awaited (u : State) (hp : u.plan = s.plan) (hl : u.lanes = cutLanes f.number ls) : Awaited none u o := by
    unfold Awaited State.livePlan
    simp only [hp, hl, hls.cut_state]
    exact ha
  cases hk : f.slot with
  | some k =>
    rw [enqueueSealed_timer (hdone.trans hk) rfl] at hseal
    have hcascade := sealWithCascade_awaited hseal rfl hmode rfl (awaited _ rfl rfl)
    obtain ⟨e, c, sl, htake, hentry, hand⟩ := takeUp_afterTimer (u := sealWithCascade .timer (atTimerSeal f.number s)) hquiet
      hk (fun e he hx => hne e he (hx ▸ hk)) (by rw [hcascade]; rfl) (by rw [hcascade]; rfl) rfl (by rw [hcascade]; rfl)
      (by rw [hcascade]; rfl)
    have hend := timerSealed_eq
      ((congrArg drainTest htake).trans (drainTest_open (by rw [hcascade]; exact List.cons_ne_nil _ _)))
    refine ⟨ls, (timerSealed f.number s).report, s.table.queue ++ [.slot e], s.table.slots.set k sl, c, hls, ?_, ?_,
      nofun⟩
    · conv_lhs => rw [hend, hcascade]
      rfl
    · rintro k' ⟨⟩
      exact ⟨e, sl, rfl, rfl, hentry, hand⟩
  | none =>
    rw [enqueueSealed_slotless .timer (hdone.trans hk)] at hseal
    have hcascade := sealWithCascade_awaited hseal rfl hmode rfl (awaited _ rfl rfl)
    have htake := takeUp_appendSkip (u := sealWithCascade .timer (atTimerSeal f.number s)) hquiet (by rw [hcascade]; rfl)
      (by rw [hcascade]; rfl) (by rw [hcascade]; rfl)
    have hend := timerSealed_eq
      ((congrArg drainTest htake).trans (drainTest_open (by rw [hcascade]; exact List.cons_ne_nil _ _)))
    refine ⟨ls, (timerSealed f.number s).report, appendSkip s.report.framePresented _ s.table.queue, s.table.slots,
      s.patch, hls, ?_, nofun, fun _ => ⟨rfl, rfl, skipCovers_appendSkip _ _ b f _ _⟩⟩
    conv_lhs => rw [hend, hcascade]
    rfl

/-! ### SINGLE mode (R177) -/

/-- With no frame open, a lane goes OFF without a line to cut. -/
theorem laneOff_closed {s : State} (n : Lane) (h : s.table.openFrames = []) :
    laneOff n s = { s with lanes := s.lanes.set n s.lanes[n].turnedOff } := by
  have hcut : cutLine n s = s := by
    unfold cutLine onFrame
    split
    · rw [h, List.map_nil, ← h]
    · rfl
  unfold laneOff
  rw [hcut]
  rfl

/-- With no frame open, every lane goes OFF and nothing else changes. -/
theorem lanesOff_closed {s : State} (h : s.table.openFrames = []) :
    lanesOff s = { s with lanes := Vector.ofFn fun n => s.lanes[n].turnedOff } := by
  have fold (l : List Lane) (u : State) (hu : u.table.openFrames = []) :
      ∃ ls, l.foldl (fun s n => laneOff n s) u = { u with lanes := ls }
        ∧ ∀ n : Lane, ls[n] = if n ∈ l then u.lanes[n].turnedOff else u.lanes[n] := by
    induction l generalizing u with
    | nil => exact ⟨u.lanes, rfl, fun n => by simp⟩
    | cons m l ih =>
      obtain ⟨ls, hls, hn⟩ := ih { u with lanes := u.lanes.set m u.lanes[m].turnedOff } hu
      refine ⟨ls, ?_, fun n => ?_⟩
      · rw [List.foldl_cons, laneOff_closed m hu, hls]
      · rw [hn n]
        by_cases e : m = n
        · subst e
          simp [LaneTracker.turnedOff]
        · have e' : (m : Nat) ≠ n := fun h => e (Fin.ext h)
          simp [Vector.getElem_set_ne _ _ e', Ne.symm e]
  obtain ⟨ls, hls, hn⟩ := fold allLanes s h
  unfold lanesOff
  rw [hls]
  have : ls = Vector.ofFn fun n => s.lanes[n].turnedOff := by
    ext1 i hi
    have := hn ⟨i, hi⟩
    rw [if_pos (mem_allLanes _)] at this
    simpa using this
  rw [this]

/-- The lanes after the seal of frame 0 in SINGLE mode: OFF, with what R40 keeps of them. -/
theorem WithdrawnLanes.turnedOff {number : Count} {s : State} {ls : Vector LaneTracker 8}
    (h : WithdrawnLanes number s ls) :
    (Vector.ofFn fun n : Lane => (cutLanes number ls)[n].turnedOff) = lanesAllOff true s.lanes := by
  unfold lanesAllOff
  congr 1
  funext n
  have hn : (cutLanes number ls)[n].turnedOff = s.lanes[n].turnedOff := by
    have := congrArg LaneTracker.turnedOff (h.only_context n)
    simpa [cutLanes, LaneTracker.turnedOff] using this
  rw [hn]
  rfl

/-- With the last open frame sealed, in SINGLE mode, the capture ends (R177). -/
theorem sealWithCascade_single {a u : State} (hseal : sealOldest .timer a = u) (hopen : u.table.openFrames = [])
    (hrun : u.capture.device = .running) (hmode : u.capture.mode = .single) :
    sealWithCascade .timer a = { u with
      lanes := Vector.ofFn fun n => u.lanes[n].turnedOff
      capture := { u.capture with device := .draining, drainCause := .singleDone } } := by
  have hend : singleEnd u = { u with
      lanes := Vector.ofFn fun n => u.lanes[n].turnedOff
      capture := { u.capture with device := .draining, drainCause := .singleDone } } := by
    unfold singleEnd
    rw [if_pos ⟨hrun, hmode⟩, lanesOff_closed (by exact hopen)]
  have hload (v : State) (hv : v.table.openFrames = []) : loadSealTimer v = v := by
    unfold loadSealTimer
    rw [hv]
  have htest (v : State) (hv : v.table.openFrames = []) : evalSealTest v = v := by
    unfold evalSealTest
    rw [hv]
    rfl
  unfold sealWithCascade sealAndTurn
  rw [hseal, hend, hload _ (by exact hopen), htest _ (by exact hopen)]

/-- The end of a single capture completes at once, or waits for a slot that is PATCHING (R176). -/
theorem drainTest_single {s w : State} (hopen : w.table.openFrames = [])
    (hcapture : w.capture = { s.capture with device := .draining, drainCause := .singleDone }) (hplan : w.plan = s.plan)
    (horigin : w.reg.origin = s.reg.origin) :
    ∃ report capture, drainTest w = { w with report := report, capture := capture } ∧ SingleEnded s (drainTest w) := by
  unfold drainTest
  cases hp : anyPatching w.table with
  | true =>
    rw [if_neg (by simp)]
    exact ⟨w.report, w.capture, rfl, .inr ⟨hp, hcapture⟩⟩
  | false =>
    rw [if_pos ⟨by rw [hcapture], hopen, rfl⟩]
    unfold completeDrain
    rw [hcapture]
    refine ⟨_, _, rfl, .inl ⟨hp, rfl, ?_⟩⟩
    rw [← hplan, ← horigin]
    rfl

theorem SingleEnded.of_chosen {s t u : State} (h : SingleEnded s t) (hc : Chosen t u) : SingleEnded s u := by
  have honly := hc.only
  have htable : u.table = t.table := by rw [honly]
  have hcapture : u.capture = t.capture := by rw [honly]
  unfold SingleEnded
  rwa [htable, hcapture, hc.stateNotice]

/-- What the expiry leaves in SINGLE mode, when the only open frame, of a fixed N, seals. -/
theorem timerSealed_single {s : State} {f : Frame} {k : Fin 32} (hquiet : Quiet s) (hd : HoldsDerived s)
    (h : s.table.openFrames = [f]) (hfixed : f.fixed = true) (hk : f.slot = some k)
    (hne : ∀ e, .slot e ∈ s.table.queue → e.slot ≠ k) (hrun : s.capture.device = .running)
    (hmode : s.capture.mode = .single) :
    ∃ e sl report capture c,
      timerSealed f.number s = { s with
          held := s.heldWithout f.number
          lanes := lanesAllOff true s.lanes
          reg := s.reg.afterSeal f
          report := report
          capture := capture
          patch := c
          table := { s.table with openFrames := [], sealTimer := .idle,
                                  queue := s.table.queue ++ [.slot e], slots := s.table.slots.set k sl } }
      ∧ SealedEntry s.livePlan .timedOut (s.timerCuts f.number) f e ∧ HandedOn s.livePlan f e sl s.patch c
      ∧ SingleEnded s (timerSealed f.number s) := by
  obtain ⟨b, os, ls, r, latches, hls, hlen, -, hr, hseal⟩ := sealOldest_timer h hd
  obtain rfl := List.length_eq_zero_iff.mp hlen
  obtain rfl := hr (.inl hfixed)
  rw [enqueueSealed_timer ((Frame.sealedWith_slot _ _ b f).trans hk) rfl] at hseal
  have hcascade := sealWithCascade_single hseal rfl hrun hmode
  obtain ⟨e, c, sl, htake, hentry, hand⟩ := takeUp_afterTimer (u := sealWithCascade .timer (atTimerSeal f.number s)) hquiet
    hk hne (by rw [hcascade]; rfl) (by rw [hcascade]; rfl) rfl (by rw [hcascade]; rfl) (by rw [hcascade]; rfl)
  obtain ⟨report, capture, hdrain, hended⟩ := drainTest_single (s := s) (w := takeUp _)
    (by rw [htake, hcascade]; rfl) (by rw [htake, hcascade]; rfl) (by rw [htake, hcascade]; rfl)
    (by rw [htake, hcascade]; rfl)
  have hend := timerSealed_eq hdrain
  have hlanes := hls.turnedOff
  refine ⟨e, sl, (timerSealed f.number s).report, capture, c, ?_, hentry, hand, ?_⟩
  · conv_lhs => rw [hend, htake, hcascade]
    rw [← hlanes]
    rfl
  · exact hended.of_chosen (present_chosen _)

/-! ### The obligation -/

/-- The lanes after the seal by the timer with a younger frame open (R103, R116). -/
theorem WithdrawnLanes.cut_cases {number : Count} {s : State} {ls : Vector LaneTracker 8}
    (h : WithdrawnLanes number s ls) (n : Lane) :
    (∀ x q place, s.lanes[n].context = .taking x number q place →
        (cutLanes number ls)[n] = { s.lanes[n] with context := .discarding x })
      ∧ (∀ x, s.lanes[n].context = .complete x → s.completedHeld number n = true →
        (cutLanes number ls)[n] = { s.lanes[n] with context := .discarding x })
      ∧ (s.lanes[n].context.takingInto number = false → s.completedHeld number n = false →
        (cutLanes number ls)[n] = s.lanes[n]) := by
  have hcut : (cutLanes number ls)[n] = { ls[n] with context := ls[n].context.afterSeal number } := by
    simp [cutLanes]
  rw [hcut]
  refine ⟨fun x q place hx => ?_, fun x hx hc => ?_, fun ht hc => ?_⟩
  · have hc : s.completedHeld number n = false := by
      rw [← Bool.not_eq_true, completedHeld_iff]
      rintro ⟨-, -, -, -, y, hy⟩
      cases hx.symm.trans hy
    rw [(h n).2 hc, hx, LineContext.afterSeal, if_pos rfl]
  · rw [(h n).1 x hx hc]
    rfl
  · rw [(h n).2 hc]
    have : s.lanes[n].context.afterSeal number = s.lanes[n].context := by
      cases hx : s.lanes[n].context with
      | taking x frame q place =>
        rw [hx] at ht
        exact if_neg (of_decide_eq_false ht)
      | _ => rfl
    rw [this]

end Sys2Proof.Machine

namespace Sys2Proof.Proofs

open Sys2Proof.Machine

/-- Settles O34: the seal of the oldest frame by the timer (`sealOldest_timer`), and what follows it in CONTINUOUS mode, in
SINGLE mode and in every case. -/
theorem sealTimerExpires : Obligations.SealTimerExpires := by
  refine ⟨fun s h => ?_, ?_, ?_, ?_⟩
  · exact congrArg Host.Outcome.next (sealTimerExpires_idle h)
  · rintro s f o rest hquiet ⟨⟨r, ht⟩, hd, ho⟩ h hmode ha hnum hne
    obtain ⟨hexec, hheld, hoffered, hstream⟩ := exec_sealTimerExpiry ht hd ho
    obtain ⟨ls, report, queue, slots, c, hls, hend, hslot, hslotless⟩ :=
      timerSealed_continuous hquiet hd h hmode ha hnum hne
    generalize timerSealed f.number s = t at *
    subst hend
    refine ⟨_, hexec, rfl, rfl, ⟨hheld, hoffered, hstream⟩, rfl, rfl, rfl, rfl, rfl, rfl, hls.cut_cases, fun k hk => ?_,
      hslotless⟩
    obtain ⟨e, sl, rfl, hqueue, hentry, hand⟩ := hslot k hk
    refine ⟨fun j hj => Vector.getElem_set_ne k.isLt j.isLt fun e => hj (Fin.ext e.symm), e, hqueue, hentry, ?_⟩
    rwa [Fin.getElem_fin, Vector.getElem_set_self]
  · rintro s f k hquiet ⟨⟨r, ht⟩, hd, ho⟩ h hfixed hk hne hrun hmode
    obtain ⟨hexec, hheld, hoffered, hstream⟩ := exec_sealTimerExpiry ht hd ho
    obtain ⟨e, sl, report, capture, c, hend, hentry, hand, hended⟩ :=
      timerSealed_single hquiet hd h hfixed hk hne hrun hmode
    generalize timerSealed f.number s = t at *
    subst hend
    refine ⟨_, e, hexec, rfl, rfl, ⟨hheld, hoffered, hstream⟩, rfl, rfl, rfl, rfl, rfl, hentry, ?_, rfl, hended⟩
    rwa [Fin.getElem_fin, Vector.getElem_set_self]
  · rintro s f rest k ⟨⟨r, ht⟩, hd, ho⟩ h hk
    obtain ⟨hexec, hheld, hoffered, hstream⟩ := exec_sealTimerExpiry ht hd ho
    obtain ⟨hlen, e, he, hentry⟩ := timerSealed_entry h hd hk
    exact ⟨_, e, hexec, ⟨hheld, hoffered, hstream⟩, hlen, he, hentry⟩

end Sys2Proof.Proofs
end

section
/-! What every operation of the lane, frame, registration and patch blocks does to the fields that the invariants of capture
and of ranges read (R27, R34, R44, R64, R67, R68, R145, R155): one lemma for each operation (`Kept`). -/

namespace Sys2Proof.Machine

/-! ### The relation -/

/-- A correction of at most MARK_MAX_STEP in magnitude (R44). -/
def Plan.stepBound (p : Plan) (c : Int) : Prop := -(p.run.markMaxStep : Int) ≤ c ∧ c ≤ p.run.markMaxStep

/-- The damaged count and the run list of a frame are in their ranges (R34, R67). -/
def Frame.inRange (f : Frame) : Prop := f.damaged ≤ 65535 ∧ f.runs.length ≤ 16

/-- A lane that is not OFF was not OFF before. -/
def LanesFollow (before after : Vector LaneTracker 8) : Prop :=
  ∀ n : Lane, after[n].state ≠ .off → before[n].state ≠ .off

/-- Every lane is OFF. -/
def AllOff (lanes : Vector LaneTracker 8) : Prop := ∀ n : Lane, lanes[n].state = .off

/-- What a line or a seal does to the device state and the lanes: the device stays, the origin sets it RUNNING (R174), or a
single capture ends, with every lane OFF (R177). -/
inductive DeviceMoves (d d' : DeviceState) (lanes lanes' : Vector LaneTracker 8) : Prop where
  | stays (hd : d' = d) (hl : LanesFollow lanes lanes')
  | runs (hs : d = .armed) (ht : d' = .running) (hl : LanesFollow lanes lanes')
  | drains (hs : d = .armed ∨ d = .running) (ht : d' = .draining) (hl : AllOff lanes')

/-- The plan stays, the correction stays or is limited, the counts and the run lists that were in range are, and the device
and the lanes move as `DeviceMoves` says. -/
structure Moved (s t : State) : Prop where
  live       : t.plan.live = s.plan.live := by rfl
  generation : t.plan.generation = s.plan.generation := by rfl
  correction : t.reg.correction = s.reg.correction ∨ s.livePlan.stepBound t.reg.correction := by exact .inl (Eq.refl _)
  latches    : (∀ k : Fin 52, s.report.latches[k].count ≤ 65535) → ∀ k : Fin 52, t.report.latches[k].count ≤ 65535 := by
    exact id
  markLost   : s.reg.markLost ≤ 255 → t.reg.markLost ≤ 255 := by exact id
  frames     : (∀ f ∈ s.table.openFrames, f.inRange) → ∀ f ∈ t.table.openFrames, f.inRange := by exact id
  device     : DeviceMoves s.capture.device t.capture.device s.lanes t.lanes := by exact .stays (Eq.refl _) fun _ => id

/-- And no frame opens in a device that is then DORMANT, STOPPED or ARMED (R68). -/
structure Kept (s t : State) : Prop extends Moved s t where
  shut : t.capture.device.closed = true → s.table.openFrames = [] → t.table.openFrames = [] := by exact fun _ h => h

theorem LanesFollow.trans {l l' l'' : Vector LaneTracker 8} (h : LanesFollow l l') (k : LanesFollow l' l'') :
    LanesFollow l l'' :=
  fun n hn => h n (k n hn)

theorem LanesFollow.off {l l' : Vector LaneTracker 8} (h : LanesFollow l l') {n : Lane} (hn : l[n].state = .off) :
    l'[n].state = .off :=
  by_contra fun hn' => h n hn' hn

theorem DeviceMoves.trans {d d' d'' : DeviceState} {l l' l'' : Vector LaneTracker 8} (h : DeviceMoves d d' l l')
    (k : DeviceMoves d' d'' l' l'') : DeviceMoves d d'' l l'' := by
  cases h with
  | stays hd hl =>
    subst hd
    cases k with
    | stays kd kl => exact .stays kd (hl.trans kl)
    | runs ks kt kl => exact .runs ks kt (hl.trans kl)
    | drains ks kt kl => exact .drains ks kt kl
  | runs hs ht hl =>
    cases k with
    | stays kd kl => exact .runs hs (kd.trans ht) (hl.trans kl)
    | runs ks kt kl => exact .runs hs kt (hl.trans kl)
    | drains ks kt kl => exact .drains (.inl hs) kt kl
  | drains hs ht hl =>
    cases k with
    | stays kd kl => exact .drains hs (kd.trans ht) fun n => kl.off (hl n)
    | runs ks kt kl => cases ht.symm.trans ks
    | drains ks kt kl => exact .drains hs kt kl

/-- A device that ends DORMANT, STOPPED or ARMED has not moved. -/
theorem DeviceMoves.of_closed {d d' : DeviceState} {l l' : Vector LaneTracker 8} (h : DeviceMoves d d' l l')
    (hc : d'.closed = true) : d' = d := by
  cases h with
  | stays hd => exact hd
  | runs _ ht => rw [ht] at hc; cases hc
  | drains _ ht => rw [ht] at hc; cases hc

/-- A lane that is OFF stays so. -/
theorem DeviceMoves.off {d d' : DeviceState} {l l' : Vector LaneTracker 8} (h : DeviceMoves d d' l l') {n : Lane}
    (hn : l[n].state = .off) : l'[n].state = .off := by
  cases h with
  | stays _ hl => exact hl.off hn
  | runs _ _ hl => exact hl.off hn
  | drains _ _ hl => exact hl n

theorem Moved.livePlan {s t : State} (h : Moved s t) : t.livePlan = s.livePlan := by
  unfold State.livePlan; rw [h.live]

theorem Moved.trans {s t u : State} (h : Moved s t) (k : Moved t u) : Moved s u where
  live := k.live.trans h.live
  generation := k.generation.trans h.generation
  correction := by
    rcases k.correction with e | e
    · rw [e]; exact h.correction
    · exact .inr (h.livePlan ▸ e)
  latches := k.latches ∘ h.latches
  markLost := k.markLost ∘ h.markLost
  frames := k.frames ∘ h.frames
  device := h.device.trans k.device

theorem Kept.trans {s t u : State} (h : Kept s t) (k : Kept t u) : Kept s u where
  toMoved := h.toMoved.trans k.toMoved
  shut hc hs := k.shut hc (h.shut (k.device.of_closed hc ▸ hc) hs)

theorem Kept.rfl {s : State} : Kept s s := {}

theorem Kept.ite {s t u : State} {c : Prop} [Decidable c] (ht : Kept s t) (hu : Kept s u) : Kept s (if c then t else u) := by
  split
  · exact ht
  · exact hu

/-! ### Flags and shared operations -/

theorem Latch.raise_count (d : LatchDetail) (l : Latch) : (Latch.raise d l).count ≤ 65535 := Nat.min_le_left _ _

theorem raise_kept (k : Fin 52) (d : LatchDetail) (s : State) : Kept s (raise k d s) :=
  { latches := fun h j => by
      by_cases e : j = k
      · subst e
        rw [Fin.getElem_fin, raise_latch_same]
        exact Latch.raise_count _ _
      · rw [raise_latch_other s k j d e]
        exact h j }

theorem answer_kept (tag : Byte) (r : ResultWord) (s : State) : Kept s (answer tag r s) := {}
theorem handNotice_kept (d : DeviceState) (c : NoticeCause) (s : State) : Kept s (handNotice d c s) := {}
theorem setSlot_kept (k : Fin 32) (st : SlotState) (s : State) : Kept s (setSlot k st s) := {}

/-- An operation on a lane that does not leave OFF by it. -/
theorem onLane_kept (n : Lane) (f : LaneTracker → LaneTracker) (s : State)
    (h : (f s.lanes[n]).state ≠ .off → s.lanes[n].state ≠ .off) : Kept s (onLane n f s) := by
  refine { device := .stays rfl fun m => ?_ }
  show ((s.lanes.set n (f s.lanes[n]))[m]).state ≠ .off → _
  by_cases e : m = n
  · subst e
    rw [Fin.getElem_fin, Vector.getElem_set_self]
    exact h
  · have hn : (n : Nat) ≠ m := fun he => e (Fin.ext he.symm)
    rw [Fin.getElem_fin, Vector.getElem_set_ne _ _ hn]
    exact id

/-- The context is no part of a lane's state. -/
theorem setContext_kept (n : Lane) (c : LineContext) (s : State) : Kept s (setContext n c s) := onLane_kept n _ s id

theorem onFrame_kept (number : Count) (f : Frame → Frame) (s : State) (h : ∀ g : Frame, g.inRange → (f g).inRange) :
    Kept s (onFrame number f s) := by
  refine { frames := fun hs g hg => ?_, shut := fun _ hn => by simp [onFrame, hn] }
  obtain ⟨g', hg', rfl⟩ := List.mem_map.mp hg
  split
  · exact h g' (hs g' hg')
  · exact hs g' hg'

theorem setCorrection_kept {c : Int} {s : State} (h : s.livePlan.stepBound c) : Kept s (setCorrection c s) :=
  { correction := .inr h }

theorem Plan.stepBound_zero (p : Plan) : p.stepBound 0 := by unfold Plan.stepBound; omega

theorem limitStep_bound (p : Plan) (c : Int) : p.stepBound (limitStep p.run.markMaxStep c) := by
  unfold Plan.stepBound limitStep; omega

theorem Frame.damage_inRange {f : Frame} (h : f.inRange) : f.damage.inRange := ⟨Nat.min_le_left _ _, h.2⟩

theorem cutLine_kept (n : Lane) (s : State) : Kept s (cutLine n s) := by
  unfold cutLine
  split
  · exact onFrame_kept _ _ s fun _ => Frame.damage_inRange
  · exact .rfl

theorem laneOff_kept (n : Lane) (s : State) : Kept s (laneOff n s) :=
  (cutLine_kept n s).trans (onLane_kept n _ _ fun h => absurd rfl h)

theorem lanesOff_kept (s : State) : Kept s (lanesOff s) := by
  unfold lanesOff
  generalize allLanes = l
  induction l generalizing s with
  | nil => exact .rfl
  | cons n l ih => exact (laneOff_kept n s).trans (ih _)

theorem laneOff_off (n : Lane) (s : State) : (laneOff n s).lanes[n].state = .off := by
  rw [Fin.getElem_fin, laneOff, onLane_same]
  rfl

/-- Every lane goes OFF (R175, R177, R178). -/
theorem lanesOff_allOff (s : State) : AllOff (lanesOff s).lanes := by
  have fold (l : List Lane) (u : State) (n : Lane) (h : n ∈ l ∨ u.lanes[n].state = .off) :
      (l.foldl (fun s n => laneOff n s) u).lanes[n].state = .off := by
    induction l generalizing u with
    | nil => exact h.resolve_left List.not_mem_nil
    | cons m l ih =>
      refine ih _ ?_
      rcases h with h | h
      · rcases List.mem_cons.mp h with rfl | h
        · exact .inr (laneOff_off n u)
        · exact .inl h
      · exact .inr ((laneOff_kept m u).device.off h)
  exact fun n => fold allLanes s n (.inl (mem_allLanes n))

/-! ### Registration -/

theorem recompute_kept (s : State) : Kept s (recompute s) := by
  rcases recompute_cases s with h | ⟨older, f, ho, -, h⟩
  · rw [h]; exact .rfl
  · rw [h]
    refine { frames := fun hs g hg => ?_, shut := fun _ hn => ?_ }
    · rw [ho] at hs
      rcases List.mem_append.mp hg with hg | hg
      · exact hs g (List.mem_append_left _ hg)
      · rw [List.mem_singleton.mp hg]
        exact hs f (List.mem_append_right _ (List.mem_singleton.mpr rfl))
    · rw [ho] at hn
      exact absurd hn (List.append_ne_nil_of_right_ne_nil _ (List.cons_ne_nil _ _))

theorem fixNewest_kept (s : State) : Kept s (fixNewest s) := by
  rcases fixNewest_cases s with h | ⟨older, f, ho, -, h⟩
  · rw [h]; exact .rfl
  · rw [h]
    refine { correction := .inr (Plan.stepBound_zero _), frames := fun hs g hg => ?_, shut := fun _ hn => ?_ }
    · rw [ho] at hs
      rcases List.mem_append.mp hg with hg | hg
      · exact hs g (List.mem_append_left _ hg)
      · rw [List.mem_singleton.mp hg]
        exact hs f (List.mem_append_right _ (List.mem_singleton.mpr rfl))
    · rw [ho] at hn
      exact absurd hn (List.append_ne_nil_of_right_ne_nil _ (List.cons_ne_nil _ _))

theorem takeMark_kept (frame : Count) (e : Int) (s : State) : Kept s (takeMark frame e s) := by
  unfold takeMark
  refine Kept.trans ?_ (recompute_kept _)
  refine (onFrame_kept frame (fun f => { f with markTaken := true }) s fun _ h => h).trans ?_
  exact { correction := .inr (limitStep_bound _ _), markLost := fun _ => Nat.zero_le _ }

theorem evaluateMark_kept (n : Lane) (mark : Bool) (frame : Count) (row : Nat) (s : State) :
    Kept s (evaluateMark n mark frame row s) := by
  unfold evaluateMark
  split
  · exact .rfl
  · exact .ite (.ite (raise_kept _ _ s) (takeMark_kept _ _ s)) .rfl

theorem countMarkLost_kept (f : Frame) (s : State) : Kept s (countMarkLost f s) := by
  have count (k : Nat) : Kept s { s with reg := { s.reg with markLost := min Config.maxMarkLost k } } :=
    { markLost := fun _ => Nat.min_le_left _ _ }
  exact .ite .rfl (.ite ((count _).trans (raise_kept _ _ _)) (count _))

/-! ### Sealing -/

theorem loadSealTimer_kept (s : State) : Kept s (loadSealTimer s) := by
  obtain ⟨t, h⟩ := loadSealTimer_cases s
  rw [h]
  exact {}

theorem enqueueSealed_kept (c : SealCause) (f : Frame) (s : State) : Kept s (enqueueSealed c f s) := by
  unfold enqueueSealed
  split <;> exact {}

theorem fixIfOnly_kept (s : State) : Kept s (fixIfOnly s) := by
  unfold fixIfOnly
  split
  · exact fixNewest_kept s
  · exact .rfl

/-- The oldest frame leaves the list of open frames, and its lines in flight are cut. -/
theorem sealFrame_kept (c : SealCause) {f : Frame} {rest : List Frame} {s : State}
    (h : s.table.openFrames = f :: rest) : Kept s (sealFrame c f rest s) := by
  refine Kept.trans ?_ ((countMarkLost_kept _ _).trans (enqueueSealed_kept _ _ _))
  refine { frames := fun hs g hg => hs g (h ▸ List.mem_cons_of_mem f hg),
           shut := fun _ hn => absurd (h.symm.trans hn) (List.cons_ne_nil _ _),
           device := .stays rfl fun n => ?_ }
  simp [cutLanes]

theorem sealOldest_kept (c : SealCause) (s : State) : Kept s (sealOldest c s) := by
  refine (fixIfOnly_kept s).trans ?_
  unfold sealOldest
  dsimp only
  split
  · exact .rfl
  · exact sealFrame_kept c ‹_›

theorem singleEnd_kept (s : State) : Kept s (singleEnd s) := by
  unfold singleEnd
  split
  · rename_i h
    generalize hu : ({ s with capture := { s.capture with device := .draining, drainCause := .singleDone } } : State) = u
    have hk := lanesOff_kept u
    have hoff := lanesOff_allOff u
    generalize lanesOff u = t at hk hoff
    subst hu
    have hdevice : t.capture.device = .draining := by
      cases hk.device with
      | stays hd => exact hd
      | runs hs => cases hs
      | drains _ ht => exact ht
    exact { live := hk.live, generation := hk.generation, correction := hk.correction, latches := hk.latches,
            markLost := hk.markLost, frames := hk.frames, device := .drains (.inr h.1) hdevice hoff,
            shut := fun hc => by rw [hdevice] at hc; cases hc }
  · exact .rfl

theorem sealAndTurn_kept (c : SealCause) (s : State) : Kept s (sealAndTurn c s) :=
  (sealOldest_kept c s).trans ((singleEnd_kept _).trans (loadSealTimer_kept _))

theorem cascade_kept (fuel : Nat) (s : State) : Kept s (cascade fuel s) := by
  induction fuel generalizing s with
  | zero => exact .rfl
  | succ k ih => exact .ite ((sealAndTurn_kept _ s).trans (ih _)) .rfl

theorem evalSealTest_kept (s : State) : Kept s (evalSealTest s) := cascade_kept _ s

theorem sealWithCascade_kept (c : SealCause) (s : State) : Kept s (sealWithCascade c s) :=
  (sealAndTurn_kept c s).trans (evalSealTest_kept _)

theorem sealEach_kept (c : SealCause) (fuel : Nat) (s : State) : Kept s (sealEach c fuel s) := by
  induction fuel generalizing s with
  | zero => exact .rfl
  | succ k ih => exact (sealOldest_kept c s).trans (ih _)

theorem sealAll_kept (c : SealCause) (s : State) : Kept s (sealAll c s) := sealEach_kept c _ s

end Sys2Proof.Machine
end

section
/-! What attribution, the Lane Trackers and the Patch Engine do to the fields that the invariants of capture and of ranges
read. -/

namespace Sys2Proof.Machine

/-! ### Attribution -/

theorem allocateSlot_kept (number : Count) (s : State) : Kept s (allocateSlot number s).2 := by
  unfold allocateSlot
  split
  · exact {}
  · exact raise_kept _ _ s

theorem forceSeal_kept (s : State) : Kept s (forceSeal s) := .ite (sealWithCascade_kept _ s) .rfl

/-- A frame opens with nothing damaged and nothing missing (R77). -/
theorem newFrame_inRange (b : Boundary) (slot : Option (Fin 32)) : (newFrame b slot).inRange :=
  ⟨Nat.zero_le _, Nat.zero_le _⟩

/-- A frame opens; in a device that is not RUNNING this alone breaks R68, so it is `Moved` only. -/
theorem openFrame_moved (b : Boundary) (s : State) : Moved s (openFrame b s) := by
  have hk : Kept s (allocateSlot b.frame (forceSeal (setCorrection 0 s))).2 :=
    (setCorrection_kept (Plan.stepBound_zero _)).trans ((forceSeal_kept _).trans (allocateSlot_kept _ _))
  refine hk.toMoved.trans (Moved.trans ?_ (recompute_kept _).toMoved)
  refine { frames := fun hs f hf => ?_ }
  rcases List.mem_append.mp hf with hf | hf
  · exact hs f hf
  · rw [List.mem_singleton.mp hf]
    exact newFrame_inRange _ _

theorem timerOnEndSeen_kept (before : Bool) (s : State) : Kept s (timerOnEndSeen before s) := by
  obtain ⟨t, h⟩ := timerOnEndSeen_cases before s
  rw [h]
  exact {}

/-- A run is listed while fewer than 16 are (R82). -/
theorem Frame.recordUpTo_inRange {f : Frame} (n : Lane) (stop : Nat) (h : f.inRange) : (f.recordUpTo n stop).inRange := by
  obtain ⟨hd, hr⟩ := h
  unfold recordUpTo
  split
  · exact ⟨hd, hr⟩
  · split
    · unfold recordRun
      split
      · rename_i hroom
        refine ⟨hd, ?_⟩
        rw [List.length_append, List.length_singleton]
        exact hroom
      · exact ⟨hd, hr⟩
    · exact ⟨hd, hr⟩

theorem Frame.passBy_inRange {f : Frame} (p : StaticPlan) (n : Lane) (h : f.inRange) : (f.passBy p n).inRange := by
  unfold passBy
  split
  · exact h
  · exact Frame.recordUpTo_inRange n (f.extent p) h

theorem Frame.deliver_inRange {f : Frame} (p : StaticPlan) (n : Lane) (q : Nat) (time : Count) (h : f.inRange) :
    (f.deliver p n q time).inRange :=
  Frame.recordUpTo_inRange n q h

theorem updateAt_inRange {g h : Frame → Frame} (hg : ∀ f : Frame, f.inRange → (g f).inRange)
    (hh : ∀ f : Frame, f.inRange → (h f).inRange) {i : Nat} {l : List Frame} (hl : ∀ f ∈ l, f.inRange) :
    ∀ f ∈ updateAt g h i l, f.inRange := by
  fun_induction updateAt g h i l with
  | case1 => exact hl
  | case2 f rest =>
    rw [List.forall_mem_cons] at hl ⊢
    exact ⟨hh f hl.1, hl.2⟩
  | case3 i f rest ih =>
    rw [List.forall_mem_cons] at hl ⊢
    exact ⟨hg f hl.1, ih hl.2⟩

theorem placeLine_kept (n : Lane) (i q : Nat) (time : Count) (s : State) : Kept s (placeLine n i q time s) := by
  have update : Kept s { s with table := { s.table with
      openFrames := updateAt (Frame.passBy s.livePlan.static n) (Frame.deliver s.livePlan.static n q time) i
        s.table.openFrames } } := by
    refine { frames := updateAt_inRange (fun _ => Frame.passBy_inRange _ n) fun _ => Frame.deliver_inRange _ n q time,
             shut := fun _ hn => ?_ }
    show updateAt _ _ i s.table.openFrames = []
    rw [hn]
    cases i <;> rfl
  refine update.trans ?_
  refine Kept.trans ?_ (timerOnEndSeen_kept _ _)
  exact .ite (recompute_kept _) .rfl

theorem placeInOpen_kept (n : Lane) (i q : Nat) (time : Count) (s : State) : Kept s (placeInOpen n i q time s).2 := by
  unfold placeInOpen
  split
  · exact .rfl
  · split
    · exact .rfl
    · split
      · exact .rfl
      · exact placeLine_kept n i q time s

theorem openAndPlace_moved (n : Lane) (b : Boundary) (q : Nat) (time : Count) (s : State) :
    Moved s (openAndPlace n b q time s).2 :=
  (fixNewest_kept s).toMoved.trans ((openFrame_moved b _).trans (placeLine_kept _ _ _ _ _).toMoved)

theorem passSingle_kept (n : Lane) (s : State) : Kept s (passSingle n s) := by
  refine (fixNewest_kept s).trans (Kept.trans ?_ (timerOnEndSeen_kept _ _))
  refine { frames := fun hs g hg => ?_, shut := fun _ hn => ?_ }
  · obtain ⟨f, hf, rfl⟩ := List.mem_map.mp hg
    exact Frame.passBy_inRange _ n (hs f hf)
  · show List.map _ (fixNewest s).table.openFrames = []
    rw [hn, List.map_nil]

/-- Attribution answers far ahead without changing the state (R73). -/
theorem attributeLine_moved (n : Lane) (line : Line) (s : State) :
    Moved s (attributeLine n line s).2
      ∧ ((attributeLine n line s).1 = .farAhead → (attributeLine n line s).2 = s) := by
  have placed (i q : Nat) : (placeInOpen n i q line.time s).1 ≠ .farAhead := by
    unfold placeInOpen
    repeat' split
    all_goals exact nofun
  have place (i q : Nat) : Moved s (placeInOpen n i q line.time s).2
      ∧ ((placeInOpen n i q line.time s).1 = .farAhead → (placeInOpen n i q line.time s).2 = s) :=
    ⟨(placeInOpen_kept _ _ _ _ s).toMoved, fun h => absurd h (placed i q)⟩
  unfold attributeLine
  split
  · unfold attributeContinuous
    dsimp only
    split
    · exact ⟨Kept.rfl.toMoved, nofun⟩
    · split
      · refine ⟨Kept.rfl.toMoved, fun _ => rfl⟩
      · split
        · split
          · exact ⟨Kept.rfl.toMoved, nofun⟩
          · exact place _ _
        · split
          · exact ⟨openAndPlace_moved _ _ _ _ s, nofun⟩
          · exact ⟨Kept.rfl.toMoved, fun _ => rfl⟩
  · unfold attributeSingle
    split
    · exact ⟨Kept.rfl.toMoved, nofun⟩
    · dsimp only
      split
      · exact ⟨Kept.rfl.toMoved, nofun⟩
      · split
        · exact ⟨(passSingle_kept n s).toMoved, nofun⟩
        · exact place _ _

/-- The origin sets an ARMED device RUNNING with frame 0 open (R49, R174). -/
theorem setOrigin_kept (n : Lane) (line : Line) (q residue : Nat) {s : State} (h : s.capture.device = .armed) :
    Kept s (setOrigin n line q residue s) := by
  unfold setOrigin
  dsimp only
  have hopen := openFrame_moved (originBoundary (line.pos - BitVec.ofNat 32 q) residue)
    { s with reg := { s.reg with origin := some (line.pos - BitVec.ofNat 32 q) } }
  generalize openFrame _ _ = t at hopen ⊢
  have hrun : Kept s (handNotice .running .origin { t with capture := { t.capture with device := .running } }) := by
    refine { live := hopen.live, generation := hopen.generation, correction := hopen.correction, latches := hopen.latches,
             markLost := hopen.markLost, frames := hopen.frames, device := .runs h rfl fun m => ?_, shut := nofun }
    exact not_imp_not.mpr hopen.device.off
  have hplace := hrun.trans (placeLine_kept n 0 q line.time _)
  split
  · exact hplace
  · exact hplace.trans (onFrame_kept _ _ _ fun _ h => h)

/-! ### Lane Trackers -/

theorem takeLine_kept (n : Lane) (x : LineExtent) (frame : Count) (q : Nat) (s : State) :
    Kept s (takeLine n x frame q s) := setContext_kept _ _ s

/-- In a device that is RUNNING, and so ends RUNNING or DRAINING, frames may open. -/
theorem Moved.kept_of_running {s t : State} (h : Moved s t) (hr : s.capture.device = .running) : Kept s t where
  toMoved := h
  shut hc := by
    have hd := h.device.of_closed hc
    rw [hd, hr] at hc
    cases hc

theorem runLine_kept (n : Lane) (line : Line) (x : LineExtent) {s : State} (hr : s.capture.device = .running)
    (hon : s.lanes[n].state ≠ .off) : Kept s (runLine n line x s) := by
  refine Moved.kept_of_running ?_ hr
  obtain ⟨hmoved, hahead⟩ := attributeLine_moved n line s
  unfold runLine
  dsimp only
  generalize attributeLine n line s = r at hmoved hahead
  refine hmoved.trans (Kept.toMoved ?_)
  split
  · refine Kept.trans ?_ (evaluateMark_kept _ _ _ _ _)
    exact (takeLine_kept _ _ _ _ r.2).trans (.ite .rfl (evalSealTest_kept _))
  · exact setContext_kept _ _ r.2
  · exact (setContext_kept _ _ r.2).trans (evalSealTest_kept _)
  · exact (setContext_kept _ _ r.2).trans (raise_kept _ _ _)
  · rename_i ha
    rw [hahead ha]
    refine Kept.trans ?_ (evalSealTest_kept _)
    refine Kept.trans ?_ (setContext_kept _ _ _)
    exact (raise_kept _ _ s).trans (onLane_kept _ _ _ fun _ => hon)

theorem armLine_kept (n : Lane) (line : Line) (x : LineExtent) {s : State} (h : s.capture.device = .armed) :
    Kept s (armLine n line x s) := by
  unfold armLine
  split
  · exact setContext_kept _ _ s
  · rename_i q residue _
    have htake := (setOrigin_kept n line q residue h).trans (takeLine_kept n x 0 q _)
    dsimp only
    split
    · exact htake.trans (evaluateMark_kept _ _ _ _ _)
    · exact htake

theorem handOn_kept (n : Lane) (line : Line) (x : LineExtent) {s : State} (hon : s.lanes[n].state ≠ .off) :
    Kept s (handOn n line x s) := by
  unfold handOn
  split
  · exact armLine_kept n line x ‹_›
  · exact runLine_kept n line x ‹_› hon
  · exact setContext_kept _ _ s
  · exact setContext_kept _ _ s
  · exact setContext_kept _ _ s

theorem raiseLock_kept (n : Lane) (r : LockResult) (s : State) : Kept s (raiseLock n r s) := by
  unfold raiseLock
  split
  · exact .rfl
  · exact raise_kept _ _ s

theorem raiseLock_lanes (n : Lane) (r : LockResult) (s : State) : (raiseLock n r s).lanes = s.lanes := by
  unfold raiseLock
  split <;> rfl

theorem beginLock_ne_off (count : Nat) (l : LaneTracker) : (beginLock count l).1.state ≠ .off := by
  unfold beginLock
  split <;> exact nofun

/-- No lock rule turns a lane OFF (R28 to R30). -/
theorem lockRule_ne_off (e : LaneEntry) (seq : Half) (pos : Count) {l : LaneTracker} (h : l.state ≠ .off) :
    (lockRule e seq pos l).lane.state ≠ .off := by
  unfold lockRule
  split
  · exact h
  · exact beginLock_ne_off _ _
  · unfold lockLocking
    dsimp only
    repeat' split
    · exact nofun
    · exact h
    · exact h
  · unfold lockLocked
    dsimp only
    repeat' split
    · exact h
    · exact h
    · exact h
    · exact beginLock_ne_off _ _

theorem lockAndPlace_kept (n : Lane) (t : LineTag) (x : LineExtent) {s : State} (hon : s.lanes[n].state ≠ .off) :
    Kept s (lockAndPlace n t x s) := by
  have hrule := lockRule_ne_off s.livePlan.static.lanes[n] t.seq (t.enc - s.livePlan.static.lanes[n].delay) hon
  unfold lockAndPlace
  dsimp only
  generalize lockRule s.livePlan.static.lanes[n] t.seq (t.enc - s.livePlan.static.lanes[n].delay) s.lanes[n] = r at hrule ⊢
  have hlock : Kept s (raiseLock n r (onLane n (fun _ => r.lane) s)) :=
    (onLane_kept n _ s fun _ => hon).trans (raiseLock_kept n r _)
  split
  · refine hlock.trans (handOn_kept n _ x ?_)
    rw [raiseLock_lanes, Fin.getElem_fin, onLane_same]
    exact hrule
  · exact .ite (hlock.trans ((setContext_kept _ _ _).trans (evalSealTest_kept _))) (hlock.trans (setContext_kept _ _ _))

theorem malformedBurst_kept (n : Lane) (addr off code slot : Nat) (bytes : List Byte) (s : State) :
    Kept s (malformedBurst n addr off code slot bytes s).1 := (raise_kept _ _ s).trans (setContext_kept _ _ _)

theorem beginLine_kept (n : Lane) (addr off : Nat) (fired : Option InjectionKind) (bytes : List Byte) {s : State}
    (hon : s.lanes[n].state ≠ .off) : Kept s (beginLine n addr off fired bytes s).1 := by
  unfold beginLine
  dsimp only
  have hcut : (cutLine n s).lanes = s.lanes := by
    obtain ⟨fs, h, -⟩ := cutLine_frames n s
    rw [h]
  have hbegin : Kept s (onLane n (fun l => { l with setAside := none, context := .none }) (cutLine n s)) :=
    (cutLine_kept n s).trans (onLane_kept n _ _ id)
  split
  · exact hbegin.trans (malformedBurst_kept _ _ _ _ _ _ _)
  · refine hbegin.trans (Kept.trans ?_ (setContext_kept _ _ _))
    refine lockAndPlace_kept _ _ _ ?_
    rw [Fin.getElem_fin, onLane_same, hcut]
    exact hon

theorem startLine_kept (n : Lane) (addr off : Nat) (tag : Byte) (bytes : List Byte) {s : State}
    (hon : s.lanes[n].state ≠ .off) : Kept s (startLine n addr off tag bytes s).1 := by
  unfold startLine
  dsimp only
  have hcount : Kept s (onLane n (fun l => { l with injection := (countDown s.lanes[n].injection).2 }) s) :=
    onLane_kept n _ s id
  split
  · dsimp only
    exact hcount.trans (onLane_kept n _ _ id)
  · exact hcount.trans ((onLane_kept n _ _ id).trans (raise_kept _ _ _))
  · refine hcount.trans (beginLine_kept _ _ _ _ _ ?_)
    rw [Fin.getElem_fin, onLane_same]
    exact hon

theorem continuationFault_kept (n : Lane) (addr off code slot : Nat) (bytes : List Byte) (s : State) :
    Kept s (continuationFault n addr off code slot bytes s).1 :=
  (cutLine_kept n s).trans (malformedBurst_kept _ _ _ _ _ _ _)

theorem continueLine_kept (n : Lane) (addr off : Nat) (bytes : List Byte) (s : State) :
    Kept s (continueLine n addr off bytes s).1 := by
  unfold continueLine
  dsimp only
  have fault (code slot : Nat) : Kept s (continuationFault n addr off code slot bytes s).1 :=
    continuationFault_kept _ _ _ _ _ _ s
  split
  · exact fault _ _
  iterate 2
    · repeat' split
      · exact fault _ _
      · exact fault _ _
      · exact setContext_kept _ _ s
  · repeat' split
    · exact fault _ _
    · exact fault _ _
    · exact .rfl
  · exact .rfl

theorem continueBurst_kept (n : Lane) (addr off : Nat) (tag : Byte) (bytes : List Byte) (s : State) :
    Kept s (continueBurst n addr off tag bytes s).1 := by
  unfold continueBurst
  dsimp only
  split
  · exact continueLine_kept _ _ _ _ s
  · split
    · split
      · exact raise_kept _ _ s
      · exact .rfl
    · exact continueLine_kept _ _ _ _ s

theorem landingBurst_kept (n : Lane) (addr off : Nat) (tag : Byte) (data : List Byte) (s : State) :
    Kept s (landingBurst n addr off tag data s).1 := by
  unfold landingBurst
  dsimp only
  split
  · exact .rfl
  · split
    · split
      · exact startLine_kept _ _ _ _ _ ‹_›
      · exact continueBurst_kept _ _ _ _ _ s
    · exact raise_kept _ _ s

/-! ### Patch Engine -/

theorem finishPatch_kept (k : Fin 32) (s : State) : Kept s (finishPatch k s) := {}

theorem takeUpEach_kept (fuel : Nat) (s : State) : Kept s (takeUpEach fuel s) := by
  induction fuel generalizing s with
  | zero => exact .rfl
  | succ k ih =>
    unfold takeUpEach
    split
    · exact .rfl
    · split
      · exact .rfl
      · split
        · exact {}
        · exact (finishPatch_kept _ s).trans (ih _)

theorem takeUp_kept (s : State) : Kept s (takeUp s) := takeUpEach_kept _ s

theorem advancePatch_kept (w : PatchWork) (s : State) : Kept s (advancePatch w s) := by
  unfold advancePatch
  split
  · exact {}
  · exact finishPatch_kept _ s

theorem abandonPatching_kept (s : State) : Kept s (abandonPatching s) := by
  unfold abandonPatching
  exact {}

end Sys2Proof.Machine
end

section
/-! Every step keeps the invariants of capture and of ranges: the rows that are `Kept` keep them, and beside those there are
the completion of a drain, the commands and power-on reset. -/

namespace Sys2Proof.Machine

/-! ### The three invariants across an operation -/

/-- The invariants of capture, of the correction and of the counts, if they hold before, hold after. -/
structure Preserves (s t : State) : Prop where
  capture    : CaptureInv s → CaptureInv t
  correction : CorrectionInv s → CorrectionInv t
  counts     : CountsInv s → CountsInv t

theorem Preserves.trans {s t u : State} (h : Preserves s t) (k : Preserves t u) : Preserves s u :=
  ⟨k.capture ∘ h.capture, k.correction ∘ h.correction, k.counts ∘ h.counts⟩

theorem Preserves.ite {s t u : State} {c : Prop} [Decidable c] (ht : c → Preserves s t) (hu : ¬c → Preserves s u) :
    Preserves s (if c then t else u) := by
  split
  · exact ht ‹_›
  · exact hu ‹_›

/-- A plan of zeros, which stands for an absent one, has MARK_MAX_STEP 0. -/
theorem correctionInv_iff (s : State) : CorrectionInv s ↔ s.livePlan.stepBound s.reg.correction := by
  unfold CorrectionInv State.livePlan Plan.stepBound
  cases s.plan.live with
  | some p => exact Iff.rfl
  | none =>
    have hzero : (none.getD Plan.blank).run.markMaxStep = 0 := rfl
    rw [hzero]
    dsimp only
    omega

theorem Moved.correctionInv {s t : State} (h : Moved s t) (hs : CorrectionInv s) : CorrectionInv t := by
  rw [correctionInv_iff] at hs ⊢
  rw [h.livePlan]
  rcases h.correction with e | e
  · rwa [e]
  · exact e

theorem Moved.countsInv {s t : State} (h : Moved s t) (hs : CountsInv s) : CountsInv t := by
  obtain ⟨hgeneration, hlatches, hmark, hframes⟩ := hs
  exact ⟨h.generation ▸ hgeneration, h.latches hlatches, h.markLost hmark, h.frames hframes⟩

/-- Outside ARMED and RUNNING every lane is OFF. -/
theorem CaptureInv.allOff {s : State} (h : CaptureInv s) (ha : s.capture.device ≠ .armed)
    (hr : s.capture.device ≠ .running) : AllOff s.lanes := by
  intro n
  by_contra hn
  rcases (h.2.2 n hn).1 with e | e
  · exact ha e
  · exact hr e

/-- A device with a live plan that is not DORMANT, has no frame open where it must not, and every lane OFF. -/
theorem captureInv_of_allOff {s : State} (hlive : s.plan.live ≠ none) (hdevice : s.capture.device ≠ .dormant)
    (hclosed : s.capture.device.closed = true → s.table.openFrames = []) (hoff : AllOff s.lanes) : CaptureInv s :=
  ⟨iff_of_false hlive hdevice, hclosed, fun n hn => absurd (hoff n) hn⟩

theorem Kept.captureInv {s t : State} (h : Kept s t) (hs : CaptureInv s) : CaptureInv t := by
  obtain ⟨hlive, hclosed, hlanes⟩ := hs
  have hframes (hc : t.capture.device.closed = true) : t.table.openFrames = [] :=
    h.shut hc (hclosed (h.device.of_closed hc ▸ hc))
  have hplan {d : DeviceState} (hd : s.capture.device = d) (hne : d ≠ .dormant) : t.plan.live ≠ none := by
    rw [h.live, Ne, hlive, hd]
    exact hne
  cases h.device with
  | stays hd hl =>
    refine ⟨by rw [h.live, hd]; exact hlive, hframes, fun n hn => ?_⟩
    rw [hd, h.livePlan]
    exact hlanes n (hl n hn)
  | runs hs ht hl =>
    refine ⟨iff_of_false (hplan hs nofun) (by rw [ht]; exact nofun), hframes, fun n hn => ⟨.inr ht, ?_⟩⟩
    rw [h.livePlan]
    exact (hlanes n (hl n hn)).2
  | drains hs ht hl =>
    refine captureInv_of_allOff ?_ (by rw [ht]; exact nofun) hframes hl
    rcases hs with hs | hs
    · exact hplan hs nofun
    · exact hplan hs nofun

theorem Kept.preserves {s t : State} (h : Kept s t) : Preserves s t :=
  ⟨h.captureInv, h.correctionInv, h.countsInv⟩

theorem Preserves.rfl {s : State} : Preserves s s := Kept.rfl.preserves

/-! ### The Report Unit's choice and the completion of a drain -/

theorem Chosen.kept {s t : State} (h : Chosen s t) : Kept s t := by
  have hcount := h.count
  have honly := h.only
  generalize t.report = r at hcount honly
  subst honly
  exact { latches := fun hs k => hcount k ▸ hs k }

theorem present_kept (s : State) : Kept s (present s) := (present_chosen s).kept

theorem answerStop_kept (s : State) : Kept s (answerStop s) := by
  unfold answerStop
  split
  · exact {}
  · exact .rfl

/-- A device STOPPED. -/
theorem completeDrain_kept (s : State) :
    Kept { s with capture := { s.capture with device := .stopped, drainCause := .none } } (completeDrain s) := by
  unfold completeDrain
  dsimp only
  split
  · exact (handNotice_kept _ _ _).trans (answerStop_kept _)
  · exact handNotice_kept _ _ _
  · exact .rfl

theorem drainTest_preserves (s : State) : Preserves s (drainTest s) := by
  refine .ite (fun h => ?_) fun _ => .rfl
  obtain ⟨hdrain, hopen, -⟩ := h
  have hstop : Preserves s { s with capture := { s.capture with device := .stopped, drainCause := .none } } := by
    refine ⟨fun hs => captureInv_of_allOff ?_ nofun (fun _ => hopen) (hs.allOff ?_ ?_), id, id⟩
    · show s.plan.live ≠ none
      rw [Ne, hs.1, hdrain]
      exact nofun
    · rw [hdrain]; exact nofun
    · rw [hdrain]; exact nofun
  exact hstop.trans (completeDrain_kept s).preserves

theorem settle_preserves (s : State) : Preserves s (settle s) := (takeUp_kept s).preserves.trans (drainTest_preserves _)

/-! ### START, STOP and ABORT -/

theorem beginCapture_preserves (mode : CaptureMode) (origin : OriginMode) {s : State}
    (h : s.capture.device = .stopped) : Preserves s (beginCapture mode origin s) := by
  refine ⟨fun hs => ?_, fun _ => ?_, fun hs => ?_⟩
  · obtain ⟨hlive, hclosed, -⟩ := hs
    refine ⟨iff_of_false ?_ nofun, fun _ => hclosed (by rw [h]; rfl), fun n hn => ⟨.inl rfl, ?_⟩⟩
    · show s.plan.live ≠ none
      rw [Ne, hlive, h]
      exact nofun
    · by_contra hen
      refine hn ?_
      have hoff : s.livePlan.enabled n = false := Bool.eq_false_of_not_eq_true hen
      simp [beginCapture, LaneTracker.atStart, hoff]
  · rw [correctionInv_iff]
    exact Plan.stepBound_zero _
  · obtain ⟨hgeneration, hlatches, -, hframes⟩ := hs
    exact ⟨hgeneration, hlatches, Nat.zero_le _, hframes⟩

/-- A device that leaves capture with every lane OFF. -/
theorem capture_preserves {s : State} (c : Capture) (hoff : AllOff s.lanes)
    (hdormant : s.capture.device ≠ .dormant) (hc : c.device ≠ .dormant)
    (hclosed : c.device.closed = true → s.table.openFrames = []) : Preserves s { s with capture := c } := by
  refine ⟨fun hs => captureInv_of_allOff ?_ hc hclosed hoff, id, id⟩
  show s.plan.live ≠ none
  rw [Ne, hs.1]
  exact hdormant

theorem laneOff_capture (n : Lane) (s : State) (c : Capture) :
    laneOff n { s with capture := c } = { laneOff n s with capture := c } := by
  unfold laneOff cutLine
  dsimp only
  split <;> rfl

/-- The lanes' going OFF does not read capture control. -/
theorem lanesOff_capture (s : State) (c : Capture) :
    lanesOff { s with capture := c } = { lanesOff s with capture := c } := by
  unfold lanesOff
  generalize allLanes = l
  induction l generalizing s with
  | nil => rfl
  | cons n l ih =>
    rw [List.foldl_cons, List.foldl_cons, laneOff_capture]
    exact ih _

theorem lanesOff_device (s : State) : (lanesOff s).capture = s.capture := by
  have h := lanesOff_capture s s.capture
  rw [show ({ s with capture := s.capture } : State) = s from rfl] at h
  rw [h]

theorem beginDrain_preserves (tag : Byte) {s : State} (h : s.capture.device ≠ .dormant) :
    Preserves s (beginDrain tag s) := by
  unfold beginDrain
  refine Preserves.trans ?_ ((sealAll_kept _ _).preserves.trans (settle_preserves _))
  have hpending : Kept s { s with plan := { s.plan with pendingCommand := some (.stop tag) } } := {}
  have hlanes := hpending.trans (lanesOff_kept _)
  rw [lanesOff_capture (s := { s with plan := { s.plan with pendingCommand := some (.stop tag) } })]
  refine hlanes.preserves.trans (capture_preserves _ (lanesOff_allOff _) ?_ nofun nofun)
  rw [lanesOff_device]
  exact h

/-- A seal takes the oldest frame off the list. -/
theorem sealOldest_length (cause : SealCause) {s : State} {f : Frame} {rest : List Frame}
    (h : s.table.openFrames = f :: rest) : (sealOldest cause s).table.openFrames = rest := by
  obtain ⟨b, r, he, -⟩ := sealOldest_cons cause h
  obtain ⟨ls, hf⟩ := sealFrame_eq cause { f with fixed := b } rest
    { s with table := { s.table with openFrames := { f with fixed := b } :: rest }, reg := r }
  rw [he, hf]
  unfold enqueueSealed
  split <;> rfl

/-- STOP and ABORT leave no frame open (R175, R178). -/
theorem sealAll_closed (cause : SealCause) (s : State) : (sealAll cause s).table.openFrames = [] := by
  have each (l : List Frame) (u : State) (h : u.table.openFrames = l) :
      (sealEach cause l.length u).table.openFrames = [] := by
    induction l generalizing u with
    | nil => exact h
    | cons f rest ih => exact ih _ (sealOldest_length cause h)
  exact each _ s rfl

theorem emptyInjections_kept (s : State) : Kept s (emptyInjections s) :=
  { device := .stays rfl fun n => by simp [emptyInjections] }

theorem abortCapture_preserves {s : State} (h : s.capture.device ≠ .dormant) : Preserves s (abortCapture s) := by
  unfold abortCapture
  dsimp only
  have hempty := (lanesOff_kept s).trans (emptyInjections_kept _)
  have hoff : AllOff (emptyInjections (lanesOff s)).lanes := fun n => (emptyInjections_kept _).device.off (lanesOff_allOff s n)
  have hdevice : (emptyInjections (lanesOff s)).capture.device ≠ .dormant := by
    rw [emptyInjections_capture, lanesOff_device]
    exact h
  generalize emptyInjections (lanesOff s) = u at hempty hoff hdevice
  have hseal := sealAll_kept .abort u
  have hshut := sealAll_closed .abort u
  generalize sealAll .abort u = v at hseal hshut
  have hv : v.capture.device ≠ .dormant := by
    intro e
    rw [hseal.device.of_closed (by rw [e]; rfl)] at e
    exact hdevice e
  refine ((hempty.trans hseal).trans (abandonPatching_kept v)).preserves.trans ?_
  refine Preserves.trans ?_ (handNotice_kept _ _ _).preserves
  refine capture_preserves _ (by rw [abandonPatching_lanes]; exact fun n => hseal.device.off (hoff n))
    (by rwa [abandonPatching_capture]) nofun fun _ => ?_
  unfold abandonPatching
  exact hshut

end Sys2Proof.Machine
end

section
/-! COMMIT and the other commands, the rows of the two ports, and the step lemmas of capture and of ranges. -/

namespace Sys2Proof.Machine

/-! ### COMMIT (R63, R155, R156, R165, R179) -/

theorem applyPlanes_kept (old new : Plan) (s : State) : Kept s (applyPlanes old new s) := .ite .rfl {}

theorem applyRing_kept (old new : Plan) (s : State) : Kept s (applyRing old new s) := .ite .rfl {}

theorem applyThreshold_kept (old new : Plan) (s : State) : Kept s (applyThreshold old new s) := .ite .rfl {}

theorem installPlan_countsInv {s : State} (new : Plan) (h : CountsInv s) : CountsInv (installPlan new s) := by
  obtain ⟨-, hlatches, hmark, hframes⟩ := h
  exact ⟨Nat.min_le_left _ _, hlatches, hmark, hframes⟩

/-- The first plan that is taken: the device leaves DORMANT with the correction at 0 (R44, R164). -/
theorem takeFirstPlan_preserves (new : Plan) {s : State} (h : s.plan.live = none) :
    Preserves s (takeFirstPlan new s) := by
  refine ⟨fun hs => ?_, fun hs => ?_, installPlan_countsInv new⟩
  · have hdevice := hs.1.mp h
    refine captureInv_of_allOff nofun nofun (fun _ => hs.2.1 (by rw [hdevice]; rfl)) (hs.allOff ?_ ?_)
    · rw [hdevice]; exact nofun
    · rw [hdevice]; exact nofun
  · unfold CorrectionInv at hs
    rw [h] at hs
    rw [correctionInv_iff]
    show new.stepBound s.reg.correction
    rw [hs]
    exact Plan.stepBound_zero _

/-- The plan is taken, and the blocks other than the Lane Trackers have acted on it (R165). -/
def planInstalled (old new : Plan) (s : State) : State :=
  applyMaxStep old new (applyRing old new (applyPlanes old new (installPlan new s)))

theorem applyMaxStep_cases (old new : Plan) (s : State) :
    ∃ reg fs, applyMaxStep old new s = { s with table := { s.table with openFrames := fs }, reg := reg }
      ∧ (s.table.openFrames = [] → fs = []) := by
  unfold applyMaxStep
  split
  · exact ⟨s.reg, s.table.openFrames, rfl, id⟩
  · rcases recompute_cases (setCorrection (limitStep new.run.markMaxStep s.reg.correction) s) with h | ⟨older, f, ho, -, h⟩
    · rw [h]
      exact ⟨_, s.table.openFrames, rfl, id⟩
    · rw [h]
      refine ⟨_, _, rfl, fun hn => ?_⟩
      rw [show s.table.openFrames = older ++ [f] from ho] at hn
      exact absurd hn (List.append_ne_nil_of_right_ne_nil _ (List.cons_ne_nil _ _))

/-- They leave the lanes and capture control alone, and open no frame. -/
theorem planInstalled_cases (old new : Plan) (s : State) :
    (planInstalled old new s).plan.live = some new ∧ (planInstalled old new s).lanes = s.lanes
      ∧ (planInstalled old new s).capture = s.capture
      ∧ (s.table.openFrames = [] → (planInstalled old new s).table.openFrames = []) := by
  obtain ⟨reg, fs, h, hfs⟩ := applyMaxStep_cases old new (applyRing old new (applyPlanes old new (installPlan new s)))
  have hbefore : ∃ report last, applyRing old new (applyPlanes old new (installPlan new s))
      = { installPlan new s with report := report, table := { s.table with lastAllocated := last } } := by
    unfold applyRing applyPlanes
    split <;> split <;> exact ⟨_, _, rfl⟩
  obtain ⟨report, last, hb⟩ := hbefore
  unfold planInstalled
  rw [hb] at hfs
  rw [h, hb]
  exact ⟨rfl, rfl, rfl, hfs⟩

theorem planInstalled_correctionInv {old : Plan} (new : Plan) {s : State} (h : s.plan.live = some old)
    (hs : CorrectionInv s) : CorrectionInv (planInstalled old new s) := by
  have hb : Kept (installPlan new s) (applyRing old new (applyPlanes old new (installPlan new s))) :=
    (applyPlanes_kept _ _ _).trans (applyRing_kept _ _ _)
  have hc : (applyRing old new (applyPlanes old new (installPlan new s))).reg = s.reg := by
    unfold applyRing applyPlanes
    split <;> split <;> rfl
  unfold planInstalled
  generalize applyRing old new (applyPlanes old new (installPlan new s)) = u at hb hc
  have hlive : u.livePlan = new := hb.livePlan
  unfold applyMaxStep
  split
  · rename_i he
    unfold CorrectionInv at hs
    rw [h] at hs
    rw [correctionInv_iff, hlive, hc]
    unfold Plan.stepBound
    rwa [← he]
  · refine (recompute_kept _).correctionInv ?_
    rw [correctionInv_iff]
    show u.livePlan.stepBound _
    rw [hlive]
    exact limitStep_bound new _

theorem planInstalled_countsInv (old new : Plan) {s : State} (hs : CountsInv s) :
    CountsInv (planInstalled old new s) := by
  have hb : Kept (installPlan new s) (applyRing old new (applyPlanes old new (installPlan new s))) :=
    (applyPlanes_kept _ _ _).trans (applyRing_kept _ _ _)
  have hu := hb.countsInv (installPlan_countsInv new hs)
  unfold planInstalled
  generalize applyRing old new (applyPlanes old new (installPlan new s)) = u at hu
  unfold applyMaxStep
  split
  · exact hu
  · exact (recompute_kept _).countsInv hu

/-- One lane under a new LANE_ENABLE (R179). -/
def LaneTracker.underEnable (old new : Plan) (n : Lane) (l : LaneTracker) : LaneTracker :=
  if new.enabled n && !old.enabled n then l.seeking
  else if old.enabled n && !new.enabled n then l.turnedOff
  else l

/-- A lane that is not OFF after it is one that the new plan enables. -/
theorem LaneTracker.underEnable_on {old new : Plan} {n : Lane} {l : LaneTracker} (h : (l.underEnable old new n).state ≠ .off)
    (hl : l.state ≠ .off → old.enabled n = true ∨ new.enabled n = true) : new.enabled n = true := by
  unfold underEnable at h
  cases ho : old.enabled n <;> cases hn : new.enabled n <;> simp_all [turnedOff]

theorem enableLane_eq (old new : Plan) (n : Lane) (s : State) :
    ∃ fs, enableLane old new n s = { s with
        lanes := s.lanes.set n (s.lanes[n].underEnable old new n), table := { s.table with openFrames := fs } }
      ∧ (s.table.openFrames = [] → fs = []) ∧ ((∀ f ∈ s.table.openFrames, f.inRange) → ∀ f ∈ fs, f.inRange) := by
  unfold enableLane LaneTracker.underEnable
  split
  · exact ⟨s.table.openFrames, rfl, id, id⟩
  · split
    · obtain ⟨fs, h, hl⟩ := cutLine_frames n s
      have hk := cutLine_kept n s
      unfold laneOff
      rw [h] at hk ⊢
      refine ⟨fs, rfl, fun hn => ?_, hk.frames⟩
      rw [hn] at hl
      exact List.length_eq_zero_iff.mp hl
    · refine ⟨s.table.openFrames, ?_, id, id⟩
      rw [Fin.getElem_fin, Vector.set_getElem_self]

/-- What LANE_ENABLE does to the lanes of a list: no lane of it, and no lane that was so before, is left on without the new
plan enabling it. -/
theorem foldl_enableLane (old new : Plan) (l : List Lane) (s : State) :
    ∃ ls fs, l.foldl (fun s n => enableLane old new n s) s
        = { s with lanes := ls, table := { s.table with openFrames := fs } }
      ∧ (s.table.openFrames = [] → fs = []) ∧ ((∀ f ∈ s.table.openFrames, f.inRange) → ∀ f ∈ fs, f.inRange)
      ∧ ∀ n : Lane, (s.lanes[n].state ≠ .off → old.enabled n = true ∨ new.enabled n = true) →
          (n ∈ l ∨ (s.lanes[n].state ≠ .off → new.enabled n = true)) → ls[n].state ≠ .off → new.enabled n = true := by
  induction l generalizing s with
  | nil => exact ⟨s.lanes, s.table.openFrames, rfl, id, id, fun n _ h => h.resolve_left List.not_mem_nil⟩
  | cons m l ih =>
    obtain ⟨gs, hm, hnil, hrange⟩ := enableLane_eq old new m s
    obtain ⟨ls, fs, hfold, hnil', hrange', hls⟩ := ih (enableLane old new m s)
    rw [hm] at hnil' hrange' hls hfold
    refine ⟨ls, fs, by rw [List.foldl_cons, hm, hfold], hnil' ∘ hnil, hrange' ∘ hrange, fun n hon h => ?_⟩
    by_cases e : n = m
    · subst e
      have hset (hn : ((s.lanes.set n (s.lanes[n].underEnable old new n))[n]).state ≠ .off) : new.enabled n = true := by
        rw [Fin.getElem_fin, Vector.getElem_set_self] at hn
        exact LaneTracker.underEnable_on hn hon
      exact hls n (fun hn => .inr (hset hn)) (.inr hset)
    · have hne : (m : Nat) ≠ n := fun he => e (Fin.ext he.symm)
      have hset : (s.lanes.set m (s.lanes[m].underEnable old new m))[n] = s.lanes[n] := Vector.getElem_set_ne _ _ hne
      refine hls n ?_ (h.imp (fun h => (List.mem_cons.mp h).resolve_left e) ?_)
      · rw [hset]; exact hon
      · rw [hset]; exact id

/-- LANE_ENABLE leaves enabled lanes alone on (R27, R179). -/
theorem applyLaneEnable_captureInv {old new : Plan} {s : State} (hlive : s.plan.live = some new)
    (hdevice : s.capture.device ≠ .dormant) (hclosed : s.capture.device.closed = true → s.table.openFrames = [])
    (hlanes : ∀ n : Lane, s.lanes[n].state ≠ .off →
      (s.capture.device = .armed ∨ s.capture.device = .running) ∧ old.enabled n = true) :
    CaptureInv (applyLaneEnable old new s) := by
  unfold applyLaneEnable
  split
  · rename_i hd
    obtain ⟨ls, fs, hfold, hnil, -, hls⟩ := foldl_enableLane old new allLanes s
    have hinv : CaptureInv (allLanes.foldl (fun s n => enableLane old new n s) s) := by
      rw [hfold]
      refine ⟨iff_of_false (by rw [hlive]; exact nofun) hdevice, fun hc => hnil (hclosed hc), fun n hn => ⟨hd, ?_⟩⟩
      have hplan : State.livePlan { s with lanes := ls, table := { s.table with openFrames := fs } } = new := by
        unfold State.livePlan
        rw [hlive]
        rfl
      rw [hplan]
      exact hls n (fun hn => .inl (hlanes n hn).2) (.inl (mem_allLanes n)) hn
    dsimp only
    split
    · exact (evalSealTest_kept _).captureInv hinv
    · exact hinv
  · rename_i hd
    refine captureInv_of_allOff (by rw [hlive]; exact nofun) hdevice hclosed fun n => ?_
    by_contra hn
    exact hd (hlanes n hn).1

/-- LANE_ENABLE changes neither the plan nor the correction, and cuts lines. -/
theorem applyLaneEnable_ranges (old new : Plan) (s : State) :
    (CorrectionInv s → CorrectionInv (applyLaneEnable old new s))
      ∧ (CountsInv s → CountsInv (applyLaneEnable old new s)) := by
  obtain ⟨ls, fs, hfold, -, hrange, -⟩ := foldl_enableLane old new allLanes s
  have hcorrection (h : CorrectionInv s) : CorrectionInv (allLanes.foldl (fun s n => enableLane old new n s) s) := by
    rw [hfold]
    exact h
  have hcounts (h : CountsInv s) : CountsInv (allLanes.foldl (fun s n => enableLane old new n s) s) := by
    rw [hfold]
    exact ⟨h.1, h.2.1, h.2.2.1, hrange h.2.2.2⟩
  unfold applyLaneEnable
  dsimp only
  split
  · split
    · exact ⟨fun h => (evalSealTest_kept _).correctionInv (hcorrection h),
        fun h => (evalSealTest_kept _).countsInv (hcounts h)⟩
    · exact ⟨hcorrection, hcounts⟩
  · exact ⟨id, id⟩

theorem takePlan_preserves {old : Plan} (new : Plan) {s : State} (h : s.plan.live = some old) :
    Preserves s (takePlan old new s) := by
  have htail (u : State) : Preserves u (settle (applyThreshold old new u)) :=
    (applyThreshold_kept old new u).preserves.trans (settle_preserves _)
  show Preserves s (settle (applyThreshold old new (applyLaneEnable old new (planInstalled old new s))))
  refine Preserves.trans ⟨fun hs => ?_, fun hs => ?_, fun hs => ?_⟩ (htail _)
  · obtain ⟨hlive, hlanes, hcapture, hnil⟩ := planInstalled_cases old new s
    have hplan : s.livePlan = old := by
      unfold State.livePlan
      rw [h]
      rfl
    obtain ⟨hdormant, hclosed, hon⟩ := hs
    refine applyLaneEnable_captureInv hlive ?_ ?_ ?_
    · rw [hcapture, Ne, ← hdormant, h]
      exact nofun
    · rw [hcapture]
      exact fun hc => hnil (hclosed hc)
    · rw [hcapture, hlanes, ← hplan]
      exact hon
  · exact (applyLaneEnable_ranges _ _ _).1 (planInstalled_correctionInv new h hs)
  · exact (applyLaneEnable_ranges _ _ _).2 (planInstalled_countsInv old new hs)

theorem commitPlan_preserves (p : Plan) (s : State) : Preserves s (commitPlan p s).1 := by
  unfold commitPlan
  split
  · split
    · exact .rfl
    · exact takeFirstPlan_preserves p ‹_›
  · split
    · exact .rfl
    · split
      · exact .rfl
      · split
        · exact .rfl
        · exact takePlan_preserves p ‹_›

/-! ### The commands (R158) -/

theorem doSnapshot_kept (tag : Byte) (s : State) : Kept s (doSnapshot tag s).1 := by
  unfold doSnapshot
  generalize snapshotWritesOf s = writes
  refine { latches := fun _ k => ?_ }
  simp [ReportUnit.zeroCounts]

theorem doClearErrors_kept (s : State) : Kept s (doClearErrors s).1 := by
  unfold doClearErrors
  split
  · refine { latches := fun hs k => ?_ }
    have : (s.report.clearErrors.latches[k]).count = s.report.latches[k].count := by
      simp [ReportUnit.clearErrors, Latch.cleared]
    rw [this]
    exact hs k
  · exact .rfl

theorem doRelease_kept (arg0 : Count) (s : State) : Kept s (doRelease arg0 s).1 := by
  unfold doRelease
  split
  · dsimp only
    split
    · exact setSlot_kept _ _ s
    · exact .rfl
  · exact .rfl

theorem doInject_kept (arg0 arg1 arg2 : Count) (s : State) : Kept s (doInject arg0 arg1 arg2 s).1 := by
  unfold doInject
  split
  · dsimp only
    split
    · exact .rfl
    · split
      · exact .rfl
      · dsimp only
        exact onLane_kept _ _ s id
  · exact .rfl

/-- A command that is allowed in the device state (R158, R171). -/
theorem perform_preserves (c : MailCommand) (x : TakenCommand) {s : State}
    (h : stateAllows c s.capture.device s.capture.drainCause = true) : Preserves s (perform c x s).1 := by
  have awake (hc : c = .stop ∨ c = .abort) : s.capture.device ≠ .dormant := by
    intro hd
    rw [hd] at h
    rcases hc with rfl | rfl <;> cases h
  cases c with
  | commit => exact commitPlan_preserves _ s
  | start =>
    show Preserves s (doStart x.arg0 x.arg1 s).1
    unfold doStart
    split
    · exact .rfl
    · dsimp only
      exact beginCapture_preserves _ _ (of_decide_eq_true h)
  | stop =>
    show Preserves s (doStop x.tag s).1
    unfold doStop
    split
    · exact .rfl
    · dsimp only
      exact beginDrain_preserves _ (awake (.inl rfl))
  | abort =>
    show Preserves s (doAbort s).1
    unfold doAbort
    split
    · dsimp only
      exact (emptyInjections_kept s).preserves
    · dsimp only
      exact abortCapture_preserves (awake (.inr rfl))
  | flush =>
    show Preserves s (doFlush s).1
    unfold doFlush
    split
    · exact .rfl
    · dsimp only
      exact (sealWithCascade_kept _ s).preserves.trans (settle_preserves _)
  | release => exact (doRelease_kept _ s).preserves
  | snapshot => exact (doSnapshot_kept _ s).preserves
  | clearErrors => exact (doClearErrors_kept s).preserves
  | inject => exact (doInject_kept _ _ _ s).preserves

theorem takeCommand_preserves (x : TakenCommand) (s : State) : Preserves s (takeCommand x s) := by
  unfold takeCommand
  split
  · exact (answer_kept _ _ s).preserves
  · refine .ite (fun _ => (answer_kept _ _ s).preserves) fun _ => .ite (fun h => ?_) fun _ => (answer_kept _ _ s).preserves
    unfold answerWith
    split
    · exact perform_preserves _ x h
    · exact (perform_preserves _ x h).trans (answer_kept _ _ _).preserves

/-! ### The fabric port (R2, R5) -/

theorem hold_kept (r : FabricRequest) (lane : Option Lane) (ds : List Derived) (s : State) : Kept s (hold r lane ds s) := by
  cases ds <;> exact {}

theorem consumerActs_kept (v : Count) (s : State) : Kept s (consumerActs v s) := by
  unfold consumerActs
  split
  · exact .rfl
  · exact .ite .rfl (.ite (raise_kept _ _ s) (.ite {} {}))

theorem planWriteEffect_preserves (w : FabricWrite) (s : State) : Preserves s (planWriteEffect w s) := by
  refine Preserves.trans ?_ (present_kept _).preserves
  have hcopy (off : Nat) (data : List Byte) : Kept s (copyToShadow off data s) := {}
  have hconsumer (off len : Nat) (u : State) : Kept u (planConsumer off len u) := .ite (consumerActs_kept _ u) .rfl
  have hcommand (off len : Nat) (u : State) : Preserves u (planCommand off len u) :=
    .ite (fun _ => takeCommand_preserves _ u) fun _ => .rfl
  exact ((hcopy _ _).trans (hconsumer _ _ _)).preserves.trans (hcommand _ _ _)

theorem landingEffect_preserves (n : Lane) (w : FabricWrite) (s : State) : Preserves s (landingEffect n w s) := by
  refine Preserves.trans ?_ (present_kept _).preserves
  refine Preserves.trans ?_ (hold_kept _ _ _ _).preserves
  exact (landingBurst_kept _ _ _ _ _ s).preserves.trans (settle_preserves _)

theorem takeRequest_preserves (r : FabricRequest) (s : State) : Preserves s (takeRequest r s) := by
  cases r with
  | read a len tag =>
    show Preserves s (hold (.read a len tag) none [{ kind := .forward, req := .read a.toNat len tag }] s)
    exact (hold_kept _ _ _ s).preserves
  | write w =>
    show Preserves s (takeWrite w s)
    unfold takeWrite
    split
    · exact (hold_kept _ _ _ s).preserves.trans (planWriteEffect_preserves w _)
    · exact landingEffect_preserves _ w s
    · exact (hold_kept _ _ _ s).preserves

theorem serveList_preserves (l : List FabricRequest) (s : State) : Preserves s (serveList l s) := by
  have offered (os : List FabricRequest) : Kept s { s with offered := os } := {}
  induction l generalizing s with
  | nil => exact (offered []).preserves
  | cons r rest ih =>
    refine .ite (fun _ => (offered _).preserves) fun _ => (takeRequest_preserves r s).trans (ih _ fun _ => {})

theorem serve_preserves (s : State) : Preserves s (serve s) := serveList_preserves _ s

theorem offer_preserves (r : FabricRequest) (s : State) : Preserves s (offer r s) := by
  have offered (os : List FabricRequest) : Kept s { s with offered := os } := {}
  exact .ite (fun _ => takeRequest_preserves r s) fun _ => (offered _).preserves.trans (serve_preserves _)

/-! ### The memory port (R12) -/

theorem derivedTaken_preserves (s : State) : Preserves s (derivedTaken s) := by
  unfold derivedTaken
  split
  · exact .rfl
  · split
    · exact .rfl
    · refine Preserves.trans (Kept.preserves ?_) (serve_preserves _)
      exact {}

theorem onLatch_kept (k : Fin 52) (f : Latch → Latch) (s : State) (h : ∀ l : Latch, (f l).count = l.count) :
    Kept s { s with report := s.report.onLatch k f } := by
  refine { latches := fun hs j => ?_ }
  have hcount : ((s.report.onLatch k f).latches[j]).count = s.report.latches[j].count := by
    simp only [ReportUnit.onLatch, Fin.getElem_fin, Vector.getElem_set]
    split
    · simp_all
    · rfl
  rw [hcount]
  exact hs j

theorem recordEffect_kept (k : RecordKind) (s : State) : Kept s (recordEffect k s) := by
  unfold recordEffect
  split
  · exact .ite {} .rfl
  · exact onLatch_kept _ _ s fun _ => rfl
  · unfold frameRecordTaken
    split <;> exact {}

theorem takePresented_kept (w : ReportWrite) (s : State) : Kept s (takePresented w s) := {}

theorem recordTaken_kept (s : State) : Kept s (recordTaken s) := by
  have hcount (u : State) : Kept u (countRecord u) := {}
  unfold recordTaken
  split
  · refine .ite .rfl (Kept.trans ?_ (present_kept _))
    exact (takePresented_kept _ s).trans ((recordEffect_kept _ _).trans (hcount _))
  · exact .rfl

theorem reportWordTaken_kept (s : State) : Kept s (reportWordTaken s) := by
  unfold reportWordTaken
  split
  · exact .ite .rfl ((takePresented_kept _ s).trans (present_kept _))
  · exact .ite .rfl ((takePresented_kept _ s).trans (present_kept _))
  · exact .rfl

theorem snapshotWriteTaken_kept (s : State) : Kept s (snapshotWriteTaken s) := by
  have hends (u : State) : Kept u (snapshotEnds u) := by
    unfold snapshotEnds
    split <;> exact {}
  unfold snapshotWriteTaken
  split
  · exact .ite .rfl ((takePresented_kept _ s).trans ((hends _).trans (present_kept _)))
  · exact .rfl

theorem fillWriteTaken_preserves (s : State) : Preserves s (fillWriteTaken s) := by
  unfold fillWriteTaken
  split
  · exact .rfl
  · split
    · exact .rfl
    · refine .ite (fun _ => .rfl) fun _ => Preserves.trans ?_ (present_kept _).preserves
      refine Preserves.trans (Kept.preserves ?_) (settle_preserves _)
      have hissue (r : MemRequest) : Kept s (issue r s) := {}
      exact (hissue _).trans (advancePatch_kept _ _)

/-! ### The timers (R113, R151) -/

theorem cutHeldLine_kept (number : Count) (s : State) : Kept s (cutHeldLine number s) :=
  .ite (onFrame_kept _ _ s fun _ => Frame.damage_inRange) .rfl

theorem withdraw_kept (number : Count) (s : State) : Kept s (withdraw number s) := by
  rw [withdraw_only]
  refine { device := .stays rfl fun n => ?_ }
  have := congrArg LaneTracker.state ((withdraw_lanes number s).only_context n)
  show ((withdraw number s).lanes[n]).state ≠ .off → _
  rw [this]
  exact id

theorem sealTimerExpires_preserves (s : State) : Preserves s (sealTimerExpires s) := by
  cases h : s.table.sealTimer with
  | idle =>
    rw [sealTimerExpires_idle h]
    exact .rfl
  | running number r =>
    rw [sealTimerExpires_running h]
    have hstop (u : State) : Kept u (timerStopped u) := {}
    have hat : Kept s (atTimerSeal number s) :=
      (cutHeldLine_kept number s).trans ((hstop _).trans (withdraw_kept number _))
    refine Preserves.trans ?_ (serve_preserves _)
    refine Preserves.trans ?_ (present_kept _).preserves
    exact (hat.trans (sealWithCascade_kept _ _)).preserves.trans (settle_preserves _)

theorem attentionExpires_kept (s : State) : Kept s (attentionExpires s) := by
  unfold attentionExpires
  split
  · exact {}
  · exact .rfl

theorem tick_preserves (s : State) : Preserves s (tick s) := by
  have hseal : Preserves s (tickSealTimer s) := by
    unfold tickSealTimer
    split
    · exact .rfl
    · exact .ite (fun _ => sealTimerExpires_preserves s) fun _ => Kept.preserves {}
  have hattn (u : State) : Kept u (tickAttnTimer u) := by
    unfold tickAttnTimer
    split
    · exact .ite (attentionExpires_kept u) {}
    · exact .rfl
  exact hseal.trans (hattn _).preserves

/-! ### One step -/

theorem powerOn_preserves (sel : Byte) (s : State) : Preserves s (powerOn sel s) := by
  have hreset : Preserves s { State.resetWith sel with
      offered := s.offered, memStream := s.memStream, fabricOut := s.fabricOut, pending := s.pending } :=
    ⟨fun _ => reset_captureInv sel, fun _ => rfl, fun _ => reset_countsInv sel⟩
  exact hreset.trans (serve_preserves _)

theorem offerWrite_preserves {w : FabricWrite} {s t : State} (h : offerWrite w s = .next t) : Preserves s t := by
  rw [offerWrite_eq] at h
  split at h
  · cases h
    exact offer_preserves _ s
  · cases h

theorem exec_preserves {c : Instr} {s t : State} (h : exec c s = .next t) : Preserves s t := by
  cases c with
  | read a len tag =>
    rw [execRead_eq] at h
    split at h
    · cases h
      exact offer_preserves _ s
    · cases h
  | passWrite w => exact offerWrite_preserves h
  | planWrite w => exact offerWrite_preserves h
  | lineStart w => exact offerWrite_preserves h
  | continuation w => exact offerWrite_preserves h
  | powerOnReset sel => cases h; exact powerOn_preserves sel s
  | readResponse tag data => cases h; exact Kept.preserves {}
  | derivedRequestTaken => cases h; exact derivedTaken_preserves s
  | recordTaken => cases h; exact (recordTaken_kept s).preserves
  | reportWordTaken => cases h; exact (reportWordTaken_kept s).preserves
  | snapshotWriteTaken => cases h; exact (snapshotWriteTaken_kept s).preserves
  | fillWriteTaken => cases h; exact fillWriteTaken_preserves s
  | sealTimerExpiry => cases h; exact sealTimerExpires_preserves s
  | attentionTimerExpiry => cases h; exact (attentionExpires_kept s).preserves
  | _ => cases h; exact offer_preserves _ s

theorem step_preserves {s t : State} (h : step s = .next t) : Preserves s t := by
  unfold step at h
  split at h
  · cases h
    exact tick_preserves s
  · have hrest (rest : List Instr) : Kept s { s with pending := rest } := {}
    exact (hrest _).preserves.trans (exec_preserves h)

/-- Settles O54: every step is one that preserves the invariant (`step_preserves`). -/
theorem stepKeepsCapture : Obligations.StepKeepsCapture := fun _ _ hs h => (step_preserves h).capture hs

/-- Settles O57, as O54. -/
theorem stepKeepsRanges : Obligations.StepKeepsRanges :=
  ⟨fun _ _ hs h => (step_preserves h).correction hs, fun _ _ hs h => (step_preserves h).counts hs⟩

end Sys2Proof.Machine
end

section
/-! The commands that are refused (R158, R160, R171), and INJECT (R37). -/

namespace Sys2Proof.Machine

/-! ### The tests of R158 on a command of the mailbox -/

theorem decodeCommand_code (c : MailCommand) : decodeCommand c.code = some c := by cases c <;> rfl

theorem decodeCommand_unknown {code : Byte} (h : code.toNat < 1 ∨ 9 < code.toNat) : decodeCommand code = none := by
  unfold decodeCommand
  split <;> first | omega | rfl

section
variable {m : Mailbox} {s : State}

theorem offerMailbox_unknown {code : Byte} (h : Commanded m s) (hc : code.toNat < 1 ∨ 9 < code.toNat) :
    offerMailbox code m s = present (answer m.tag rUnknown (s.withMailbox code m)) := by
  rw [offerMailbox_taken h, takeCommand_unknown (decodeCommand_unknown hc)]

/-- The busy test reads the pending command and the seal queue, which the mailbox write leaves alone. -/
theorem offerMailbox_busy {c : MailCommand} (h : Commanded m s) (hb : busy c s = true) :
    offerMailbox c.code m s = present (answer m.tag rBusy (s.withMailbox c.code m)) := by
  rw [offerMailbox_taken h, takeCommand_busy (s := s.withMailbox c.code m) (decodeCommand_code c) hb]

theorem offerMailbox_badState {c : MailCommand} (h : Commanded m s) (hb : busy c s = false)
    (ha : stateAllows c s.capture.device s.capture.drainCause = false) :
    offerMailbox c.code m s = present (answer m.tag rBadState (s.withMailbox c.code m)) := by
  rw [offerMailbox_taken h, takeCommand_badState (s := s.withMailbox c.code m) (decodeCommand_code c) hb ha]

theorem offerMailbox_allowed {c : MailCommand} (h : Commanded m s) (hb : busy c s = false)
    (ha : stateAllows c s.capture.device s.capture.drainCause = true) :
    offerMailbox c.code m s = present (answerWith m.tag (perform c
      { code := c.code, tag := m.tag, arg0 := m.arg0, arg1 := m.arg1, arg2 := m.arg2 } (s.withMailbox c.code m))) := by
  rw [offerMailbox_taken h, takeCommand_taken (s := s.withMailbox c.code m) (decodeCommand_code c) hb ha]

end

theorem busy_of_pending {c : MailCommand} {s : State} (hc : barredWhilePending c = true)
    (h : s.plan.pendingCommand ≠ none) : busy c s = true := by
  unfold busy
  rw [hc, Option.isSome_iff_ne_none.mpr h]
  rfl

theorem busy_of_skip_tail {s : State} {e : SkipEntry} {older : List QueueEntry} (h : s.table.queue = older ++ [.skip e]) :
    busy .start s = true := by
  have ht : tailIsSkip s.table = true := by
    unfold tailIsSkip
    rw [h, List.getLast?_concat]
  unfold busy
  rw [ht, Bool.and_true, Bool.or_eq_true]
  exact .inr rfl

theorem not_busy {s : State} (hp : s.plan.pendingCommand = none) (ht : tailIsSkip s.table = false) (c : MailCommand) :
    busy c s = false := by
  unfold busy
  rw [hp, ht, Bool.and_false, Option.isSome_none, Bool.and_false, Bool.or_false]

/-- Settles O43: the code is read first, then the busy test, then the state test. -/
theorem commandsAreRefused : Obligations.CommandsAreRefused := by
  refine ⟨fun code m s h hc => congrArg Host.Outcome.next (offerMailbox_unknown h hc), fun m s h => ?_,
    fun m s h hp ht => ?_⟩
  · have busyOn {c : MailCommand} (hb : busy c s = true) :
        Host.Outcome.next (ρ := Refusal) (φ := Fault) (offerMailbox c.code m s)
          = .next (present (answer m.tag (0xE0, 0x01) (s.withMailbox c.code m))) :=
      congrArg Host.Outcome.next (offerMailbox_busy h hb)
    refine ⟨fun hp => ?_, fun e older hq => busyOn (c := .start) (busy_of_skip_tail hq)⟩
    have barred {c : MailCommand} (hc : barredWhilePending c = true) := busyOn (busy_of_pending hc hp)
    exact ⟨barred (c := .commit) rfl, barred (c := .start) rfl, barred (c := .stop) rfl, barred (c := .abort) rfl,
      barred (c := .snapshot) rfl⟩
  · have badOn {c : MailCommand} (ha : stateAllows c s.capture.device s.capture.drainCause = false) :
        Host.Outcome.next (ρ := Refusal) (φ := Fault) (offerMailbox c.code m s)
          = .next (present (answer m.tag (0xE0, 0x02) (s.withMailbox c.code m))) :=
      congrArg Host.Outcome.next (offerMailbox_badState h (not_busy hp ht c) ha)
    refine ⟨fun hd => badOn (c := .start) (decide_eq_false hd), fun hd => ?_, fun hd hc => ?_⟩
    · refine ⟨badOn (c := .stop) ?_, badOn (c := .abort) ?_, badOn (c := .flush) ?_, badOn (c := .inject) ?_⟩ <;>
      · rw [hd]; rfl
    · refine ⟨badOn (c := .stop) ?_, badOn (c := .commit) ?_⟩ <;>
      · rw [hd]; rfl

/-! ### INJECT (R37) -/

/-- The five kinds, in the order of their numbers (R37). -/
def injectionKinds : List InjectionKind := [.drop, .seqSkip, .encShift, .mark, .tagFault]

theorem injectionKind_of_getElem? {arg1 : Count} {i : Nat} {kind : InjectionKind} (hk : injectionKinds[i]? = some kind)
    (h : arg1.toNat = i + 1) : injectionKind arg1 = some kind := by
  unfold injectionKind
  rw [h]
  rcases i with _ | _ | _ | _ | _ | i <;> exact hk

theorem injectionKind_none {arg1 : Count} (h : arg1.toNat < 1 ∨ 5 < arg1.toNat) : injectionKind arg1 = none := by
  unfold injectionKind
  split <;> first | omega | rfl

section
variable {arg0 arg1 arg2 : Count} {s : State}

theorem doInject_taken {n : Lane} {kind : InjectionKind} (h0 : arg0.toNat = n.val) (h1 : injectionKind arg1 = some kind)
    (h2 : 1 ≤ arg2.toNat ∧ arg2.toNat ≤ 8) (hl : (s.entry n).winLines ≠ 0) :
    doInject arg0 arg1 arg2 s
      = (onLane n (fun l => { l with injection := some { kind := kind, countdown := arg2.toNat } }) s, some rDone) := by
  have hlt : arg0.toNat < 8 := by omega
  obtain rfl : n = ⟨arg0.toNat, hlt⟩ := Fin.ext h0.symm
  have hok : ((s.entry ⟨arg0.toNat, hlt⟩).vacant || !inRange 1 8 arg2.toNat) = false := by
    simp [LaneEntry.vacant, inRange, hl, h2]
  unfold doInject
  rw [dif_pos hlt, h1]
  exact if_neg (Bool.eq_false_iff.mp hok)

theorem doInject_refused (h : 8 ≤ arg0.toNat ∨ arg1.toNat < 1 ∨ 5 < arg1.toNat ∨ arg2.toNat < 1 ∨ 8 < arg2.toNat
    ∨ ∃ n : Lane, arg0.toNat = n.val ∧ (s.entry n).winLines = 0) :
    doInject arg0 arg1 arg2 s = (s, some rBadArgument) := by
  unfold doInject
  split
  · rename_i h0
    dsimp only
    cases hk : injectionKind arg1 with
    | none => rfl
    | some kind =>
      refine if_pos ?_
      have h1 : ¬(arg1.toNat < 1 ∨ 5 < arg1.toNat) := fun hx => by rw [injectionKind_none hx] at hk; cases hk
      rw [Bool.or_eq_true, Bool.not_eq_true']
      by_cases h2 : arg2.toNat < 1 ∨ 8 < arg2.toNat
      · refine .inr ?_
        simp only [inRange, Bool.and_eq_false_iff, decide_eq_false_iff_not]
        omega
      · obtain ⟨n, hn, hw⟩ : ∃ n : Lane, arg0.toNat = n.val ∧ (s.entry n).winLines = 0 := by
          rcases h with h | h | h | h | h | h
          · omega
          · exact absurd (.inl h) h1
          · exact absurd (.inr h) h1
          · exact absurd (.inl h) h2
          · exact absurd (.inr h) h2
          · exact h
        obtain rfl : n = ⟨arg0.toNat, h0⟩ := Fin.ext hn.symm
        exact .inl (decide_eq_true hw)
  · rfl

end

/-- Settles O47: INJECT passes both tests, and its own three decide. -/
theorem inject : Obligations.Inject := by
  intro m s h hd kinds
  have hexec : exec (.inject m) s = .next (present (answerWith m.tag
      (doInject m.arg0 m.arg1 m.arg2 (s.withMailbox 0x09 m)))) :=
    congrArg Host.Outcome.next (offerMailbox_allowed (c := .inject) h rfl (decide_eq_true hd))
  refine ⟨fun n i kind h0 hk h1 hlo hhi hw => ?_, fun hbad => ?_⟩
  · rw [hexec, doInject_taken (s := s.withMailbox 0x09 m) h0 (injectionKind_of_getElem? hk h1) ⟨hlo, hhi⟩ hw]
    rfl
  · rw [hexec, doInject_refused (s := s.withMailbox 0x09 m) hbad]
    rfl

end Sys2Proof.Machine
end

section
/-! The lock rules (R26, R28 to R31). -/

namespace Sys2Proof.Machine

/-- g_seq of R26 in the integers. -/
theorem gapSeq_toNat (l : LaneTracker) (seq : Half) :
    ((gapSeq l seq).toNat : Int) = ((seq.toNat : Int) - l.lastSeq.toNat - 1) % 65536 := by
  unfold gapSeq
  bv_omega

/-- g_pos of R26 in the integers. -/
theorem gapPos_toNat (l : LaneTracker) (pos : Count) :
    ((gapPos l pos).toNat : Int) = ((pos.toNat : Int) - l.lastP.toNat - 1) % 4294967296 := by
  unfold gapPos
  bv_omega

theorem ofInt_of_toNat {w : Nat} {x : BitVec w} {i : Int} (h : (x.toNat : Int) = i) : BitVec.ofInt w i = x := by
  rw [← h, BitVec.ofInt_natCast, BitVec.ofNat_toNat, BitVec.setWidth_eq]

/-- Both gaps are 0 exactly when the tag directly follows the last (R29). -/
theorem gaps_zero_iff (l : LaneTracker) (seq : Half) (pos : Count) :
    (gapSeq l seq = 0 ∧ gapPos l pos = 0)
      ↔ (seq.toNat : Int) = ((l.lastSeq.toNat : Int) + 1) % 65536
        ∧ (pos.toNat : Int) = ((l.lastP.toNat : Int) + 1) % 4294967296 := by
  unfold gapSeq gapPos
  refine and_congr ?_ ?_ <;> bv_omega

theorem lockRule_seeking {l : LaneTracker} (h : l.state = .seeking) (e : LaneEntry) (seq : Half) (pos : Count) :
    lockRule e seq pos l = lockSeeking e seq pos l := by
  unfold lockRule; rw [h]

theorem lockRule_locking {l : LaneTracker} (h : l.state = .locking) (e : LaneEntry) (seq : Half) (pos : Count) :
    lockRule e seq pos l = lockLocking e seq pos l := by
  unfold lockRule; rw [h]

theorem lockRule_locked {l : LaneTracker} (h : l.state = .locked) (e : LaneEntry) (seq : Half) (pos : Count) :
    lockRule e seq pos l = lockLocked e seq pos l := by
  unfold lockRule; rw [h]

section
variable {e : LaneEntry} (l : LaneTracker)

theorem beginLock_one (h : 2 ^ e.lockCode = 1) :
    beginLock e.lockCount l = ({ l with state := .locked, progress := 0 }, true) := if_pos h

theorem beginLock_more (h : 2 ^ e.lockCode ≠ 1) :
    beginLock e.lockCount l = ({ l with state := .locking, progress := 1 }, false) := if_neg h

end

/-- Settles O13: one rule for each state, its cases by the gaps. -/
theorem lockRules : Obligations.LockRules := by
  refine ⟨fun e seq pos l => ⟨fun h => ?_, fun h => ?_⟩, fun e seq pos l h => ?_⟩
  · dsimp only
    rw [lockRule_seeking h]
    unfold lockSeeking
    refine ⟨rfl, fun hc => ?_, fun hc => ?_⟩
    · rw [beginLock_one _ hc]
      exact ⟨rfl, rfl⟩
    · rw [beginLock_more _ hc]
      exact ⟨rfl, rfl⟩
  · dsimp only
    rw [lockRule_locking h]
    have hiff := gaps_zero_iff l seq pos
    unfold lockLocking LaneEntry.lockCount LaneTracker.withTag
    dsimp only
    refine ⟨?_, fun hf hc => ?_, fun hf hc => ?_, fun hf => ?_⟩
    · split
      · split <;> rfl
      · rfl
    · rw [if_pos (hiff.mpr hf), if_pos hc]
      exact ⟨rfl, rfl⟩
    · rw [if_pos (hiff.mpr hf), if_neg hc, h]
      exact ⟨rfl, rfl⟩
    · rw [if_neg fun hg => hf (hiff.mp hg), h]
      exact ⟨rfl, rfl⟩
  · dsimp only
    rw [lockRule_locked h]
    have hs := gapSeq_toNat l seq
    have hp := gapPos_toNat l pos
    rw [← hs, ← hp, ofInt_of_toNat rfl, ofInt_of_toNat rfl]
    unfold lockLocked
    refine ⟨fun hd => ?_, fun hd he hl => ?_, fun hd hg => ?_⟩
    · rw [if_pos (by omega)]
      exact ⟨rfl, rfl, rfl⟩
    · rw [if_neg (by omega), if_pos (by omega)]
      refine ⟨rfl, rfl, fun hz => ?_, fun hz => ?_⟩
      · exact if_pos (by bv_omega)
      · exact if_neg (by bv_omega)
    · rw [if_neg (by omega), if_neg (by omega)]
      refine ⟨rfl, fun hc => ?_, fun hc => ?_⟩
      · rw [beginLock_one _ hc]
        exact ⟨by rw [← h]; rfl, rfl⟩
      · rw [beginLock_more _ hc]
        exact ⟨rfl, rfl⟩

end Sys2Proof.Machine
end

section
/-! Continuations (R23 to R25, R34, R39), malformed line starts (R19, R22), and lines that the lock rules drop (R28 to R31). -/

namespace Sys2Proof.Machine

/-! ### The step of a landing burst -/

/-- A landing write once its Lane Tracker has dealt with the burst: what is due is settled, the port holds the bytes derived,
and the Report Unit chooses. -/
theorem exec_landed {w : FabricWrite} {n : Lane} {s t : State} {ds : List Derived} (hl : Lands w n s)
    (hr : landingBurst n w.addr.toNat (windowOffset w n s) w.tag w.data s = (t, ds)) :
    exec (.lineStart w) s = .next (present { settle t with held := heldFor w (some n) ds })
      ∧ exec (.continuation w) s = .next (present { settle t with held := heldFor w (some n) ds }) := by
  have hresult : landingEffect n w s = present { settle t with held := heldFor w (some n) ds } := by
    unfold landingEffect
    show present (hold (.write w) (some n)
      (landingBurst n w.addr.toNat (windowOffset w n s) w.tag w.data s).2
      (settle (landingBurst n w.addr.toNat (windowOffset w n s) w.tag w.data s).1)) = _
    rw [hr, hold_landing]
  rw [← hresult]
  exact exec_landing hl

/-- A landing burst after whose effect nothing is left to settle: the port holds what the burst derived, and the Report Unit
chooses (R2, log 7). -/
theorem exec_burst {w : FabricWrite} {n : Lane} {s t : State} {ds : List Derived} (hl : Lands w n s)
    (hr : landingBurst n w.addr.toNat (windowOffset w n s) w.tag w.data s = (t, ds)) (hset : settle t = t) :
    exec (.lineStart w) s = .next (present { t with held := heldFor w (some n) ds })
      ∧ exec (.continuation w) s = .next (present { t with held := heldFor w (some n) ds }) := by
  have h := exec_landed hl hr
  rwa [hset] at h

/-- A cut changes the open frames alone, so what is settled stays so (R34). -/
theorem settle_cutLine {n : Lane} {s t : State} (hq : Quiet s) (ht : t.table = (cutLine n s).table)
    (hp : t.patch = s.patch) (hc : t.capture = s.capture) : settle t = t := by
  obtain ⟨fs, hcut, hlen⟩ := cutLine_frames n s
  rw [hcut] at ht
  refine settle_same hq hp (by rw [ht]) (by rw [ht]) (fun h => ?_) (by rw [hc])
  rw [ht] at h
  rw [show fs = [] from h] at hlen
  exact List.length_eq_zero_iff.mp hlen.symm

theorem cutLine_lanes (n : Lane) (s : State) : (cutLine n s).lanes = s.lanes := by
  obtain ⟨fs, h, -⟩ := cutLine_frames n s
  rw [h]

theorem cutLine_livePlan (n : Lane) (s : State) : (cutLine n s).livePlan = s.livePlan := (cutLine_inner n s).livePlan

/-! ### The cases of a continuation (R23 to R25) -/

section
variable {w : FabricWrite} {n : Lane} {s : State} {x : LineExtent}

/-- The line of a context that a continuation may be in place of: TAKING or DISCARDING (R23, R24). -/
def LineContext.InFlight (c : LineContext) (x : LineExtent) : Prop :=
  (∃ f q place, c = .taking x f q place) ∨ c = .discarding x

theorem continueLine_inFlight (h : s.lanes[n].context.InFlight x) (addr off : Nat) (bytes : List Byte) :
    continueLine n addr off bytes s =
      if off / (s.entry n).winStride ≠ x.slot then
        continuationFault n addr off 8 (off / (s.entry n).winStride) bytes s
      else if off ≠ x.expected then continuationFault n addr off 7 (off / (s.entry n).winStride) bytes s
      else burstInPlace n bytes s := by
  unfold continueLine
  rcases h with ⟨f, q, place, h⟩ | h <;> rw [h] <;> rfl

theorem continueLine_none (h : s.lanes[n].context = .none) (addr off : Nat) (bytes : List Byte) :
    continueLine n addr off bytes s = continuationFault n addr off 8 (off / (s.entry n).winStride) bytes s := by
  unfold continueLine
  rw [h]
  rfl

theorem continueLine_complete (h : s.lanes[n].context = .complete x) (addr off : Nat) (bytes : List Byte) :
    continueLine n addr off bytes s =
      if off / (s.entry n).winStride ≠ x.slot then
        continuationFault n addr off 8 (off / (s.entry n).winStride) bytes s
      else if off < x.lineEnd then continuationFault n addr off 7 (off / (s.entry n).winStride) bytes s
      else (s, []) := by
  unfold continueLine
  rw [h]
  rfl

theorem continueLine_sinking {k : Nat} (h : s.lanes[n].context = .sinking k) (addr off : Nat) (bytes : List Byte) :
    continueLine n addr off bytes s = (s, sinkWrite s.livePlan.static addr bytes) := by
  unfold continueLine
  rw [h]

theorem landingBurst_setAside {a : SetAside} (h : Passes w n s) (ho : windowOffset w n s % (s.entry n).winStride ≠ 0)
    (ha : s.lanes[n].setAside = some a) (hs : a.slot = burstSlot w n s) :
    landingBurst n w.addr.toNat (windowOffset w n s) w.tag w.data s =
      match a.mode with
      | .reject => (raise (laneLatch n .tagReject) (.tagReject w.tag (windowOffset w n s)) s, sunk w n s)
      | .absorb => (s, []) := by
  rw [landingBurst_continuation h ho, ← sinkWrite_sunk]
  unfold continueBurst
  rw [ha]
  dsimp only
  rw [if_pos (by exact hs)]
  cases a.mode <;> rfl

/-- Settles O20: none of these continuations touches a lane, and the part stays quiet. -/
theorem quietContinuations : Obligations.QuietContinuations := by
  intro w n s hq
  have dropped (hl : Lands w n s) (hr : landingBurst n w.addr.toNat (windowOffset w n s) w.tag w.data s = (s, [])) :
      exec (.continuation w) s = .next s := by
    rw [(exec_burst hl hr (settle_same hq rfl rfl rfl id rfl)).2]
    show Host.Outcome.next (present { s with held := none }) = _
    rw [show ({ s with held := none } : State) = s by rw [← hl.2.1.1], hq.2.2]
  refine ⟨fun x h hc hs hend => ?_, fun k h hc => ?_, fun h ho => ⟨fun ha => ?_, fun ha => ?_⟩⟩
  · refine dropped h.1.1 ?_
    rw [landingBurst_current h]
    exact (continueLine_complete hc _ _ _).trans ((if_neg (not_not.mpr hs)).trans (if_neg (by omega)))
  · have hr : landingBurst n w.addr.toNat (windowOffset w n s) w.tag w.data s = (s, sunk w n s) := by
      rw [landingBurst_current h, continueLine_sinking hc, sinkWrite_sunk]
    exact ((exec_burst h.1.1 hr (settle_same hq rfl rfl rfl id rfl)).2).trans
      (congrArg Host.Outcome.next (present_same hq rfl rfl rfl rfl))
  · exact dropped h.1 (landingBurst_setAside h ho ha rfl)
  · exact (exec_burst h.1 (landingBurst_setAside h ho ha rfl) (settle_same hq rfl rfl rfl id rfl)).2

/-! ### A continuation in place (R23, R96) -/

/-- What a burst of `len` bytes in place makes of a TAKING line. -/
theorem contextAfterBurst_taking (len : Nat) (x : LineExtent) (f : Count) (q : Nat) (place : Placement) :
    contextAfterBurst len (.taking x f q place) =
      if x.lineEnd ≤ x.expected + min len (x.lineEnd - x.expected) then
        .complete { x with expected := x.expected + min len (x.lineEnd - x.expected) }
      else .taking { x with expected := x.expected + min len (x.lineEnd - x.expected) } f q place := by
  unfold contextAfterBurst LineExtent.done
  simp only [decide_eq_true_eq]
  rfl

/-- What a burst of `len` bytes in place makes of a DISCARDING line. -/
theorem contextAfterBurst_discarding (len : Nat) (x : LineExtent) :
    contextAfterBurst len (.discarding x) =
      if x.lineEnd ≤ x.expected + min len (x.lineEnd - x.expected) then
        .complete { x with expected := x.expected + min len (x.lineEnd - x.expected) }
      else .discarding { x with expected := x.expected + min len (x.lineEnd - x.expected) } := by
  unfold contextAfterBurst LineExtent.done
  simp only [decide_eq_true_eq]
  rfl

/-- A continuation in place changes the lane's context alone, and derives the line's writes. -/
theorem exec_continuation_inPlace (h : Continues w n s) (hq : Quiet s) (hx : s.lanes[n].context.InFlight x)
    (hs : burstSlot w n s = x.slot) (ho : windowOffset w n s = x.expected) :
    exec (.continuation w) s = .next { s with
      lanes := s.lanes.set n { s.lanes[n] with
        context := contextAfterBurst (windowData w n s).length s.lanes[n].context }
      held := heldFor w (some n)
        (writesOfBurst s.livePlan.static n (windowData w n s) s.lanes[n].context) } := by
  have hr : landingBurst n w.addr.toNat (windowOffset w n s) w.tag w.data s
      = burstInPlace n (windowData w n s) s := by
    rw [landingBurst_current h]
    exact (continueLine_inFlight hx _ _ _).trans ((if_neg (not_not.mpr hs)).trans (if_neg (not_not.mpr ho)))
  exact ((exec_burst h.1.1 (hr.trans rfl) (settle_same hq rfl rfl rfl id rfl)).2).trans
    (congrArg Host.Outcome.next (present_same hq rfl rfl rfl rfl))

end

/-- Settles O18: the context that the burst leaves, by the line's own. -/
theorem burstInPlaceAdvancesTheLine : Obligations.BurstInPlaceAdvancesTheLine := by
  intro w n s x h hq hs ho
  refine ⟨fun f q place hc => ?_, fun hc => ?_⟩
  · rw [exec_continuation_inPlace h hq (.inl ⟨f, q, place, hc⟩) hs ho, hc, contextAfterBurst_taking]
    rfl
  · rw [exec_continuation_inPlace h hq (.inr hc) hs ho, hc, contextAfterBurst_discarding]
    show Host.Outcome.next { s with lanes := _, held := none } = _
    rw [← h.1.1.2.1.1]

/-! ### A continuation fault (R24, R34) -/

/-- A malformed burst at a lane whose line in flight, if any, has been cut, from a state `u` that has the cut's lanes. -/
theorem malformedBurst_eq (n : Lane) (addr off code slot : Nat) (bytes : List Byte) (u : State) :
    malformedBurst n addr off code slot bytes u =
      ({ raise (laneLatch n .malformed) (.malformed code off) u with
          lanes := u.lanes.set n { u.lanes[n] with context := .sinking slot } },
        sinkWrite u.livePlan.static addr bytes) := rfl

/-- A continuation fault: the line in flight is cut, and the burst is malformed. -/
theorem exec_continuationFault {w : FabricWrite} {n : Lane} {s : State} {code : Nat} (h : Continues w n s) (hq : Quiet s)
    (hf : continueLine n w.addr.toNat (windowOffset w n s) (windowData w n s) s
      = continuationFault n w.addr.toNat (windowOffset w n s) code (burstSlot w n s) (windowData w n s) s) :
    exec (.continuation w) s = .next (present
      { raise (laneLatch n .malformed) (.malformed code (windowOffset w n s)) (cutLine n s) with
        lanes := s.lanes.set n { s.lanes[n] with context := .sinking (burstSlot w n s) }
        held := heldFor w (some n) (sunk w n s) }) := by
  have hr : landingBurst n w.addr.toNat (windowOffset w n s) w.tag w.data s
      = ({ raise (laneLatch n .malformed) (.malformed code (windowOffset w n s)) (cutLine n s) with
            lanes := s.lanes.set n { s.lanes[n] with context := .sinking (burstSlot w n s) } }, sunk w n s) := by
    rw [landingBurst_current h, hf]
    unfold continuationFault
    rw [malformedBurst_eq, cutLine_livePlan, sinkWrite_sunk, cutLine_lanes]
  obtain ⟨fs, hcut, -⟩ := cutLine_frames n s
  exact (exec_burst h.1.1 hr (settle_cutLine hq rfl (by rw [hcut]; rfl) (by rw [hcut]; rfl))).2

/-- Settles O19: the fault by the context, and the cut as an operation on the frame of the line. -/
theorem continuationFaultCutsTheLine : Obligations.ContinuationFaultCutsTheLine := by
  refine ⟨fun w n s h hq => ⟨fun hc => ?_, fun x hx => ⟨fun hs => ?_, fun hs ho => ?_⟩,
    fun x hc => ⟨fun hs => ?_, fun hs ho => ?_⟩⟩, fun n s => ⟨cutLine_none, fun x f q place hc => ?_⟩⟩
  · exact exec_continuationFault h hq (continueLine_none hc _ _ _)
  · exact exec_continuationFault h hq ((continueLine_inFlight hx _ _ _).trans (if_pos hs))
  · exact exec_continuationFault h hq
      ((continueLine_inFlight hx _ _ _).trans ((if_neg (not_not.mpr hs)).trans (if_pos ho)))
  · exact exec_continuationFault h hq ((continueLine_complete hc _ _ _).trans (if_pos hs))
  · exact exec_continuationFault h hq
      ((continueLine_complete hc _ _ _).trans ((if_neg (not_not.mpr hs)).trans (if_pos ho)))
  · refine ⟨s.table.openFrames.map fun g => if g.number = f then g.damage else g, ?_, List.length_map _, fun i g hg => ?_⟩
    · unfold cutLine
      rw [hc]
      rfl
    · rw [List.getElem?_map, hg]
      rfl

/-! ### Malformed tags (R19, R22) -/

/-- The lowest of the numbered conditions from `k` on that holds, or none. -/
def IsLowestFrom (k : Nat) (bad : Nat → Prop) : Option Nat → Prop
  | none => ∀ c, k ≤ c → ¬bad c
  | some j => k ≤ j ∧ bad j ∧ ∀ c, k ≤ c → c < j → ¬bad c

section
variable {bad : Nat → Prop} {k : Nat} {r : Option Nat}

theorem IsLowestFrom.skip (hk : ¬bad k) (h : IsLowestFrom (k + 1) bad r) : IsLowestFrom k bad r := by
  have below {c : Nat} (hc : k ≤ c) : c = k ∨ k + 1 ≤ c := by omega
  cases r with
  | none =>
    intro c hc
    rcases below hc with rfl | hc
    · exact hk
    · exact h c hc
  | some j =>
    obtain ⟨hle, hj, hlow⟩ := h
    refine ⟨by omega, hj, fun c hc hlt => ?_⟩
    rcases below hc with rfl | hc
    · exact hk
    · exact hlow c hc hlt

theorem IsLowestFrom.test {p : Prop} [Decidable p] (hp : p ↔ bad k) (h : IsLowestFrom (k + 1) bad r) :
    IsLowestFrom k bad (if p then some k else r) := by
  split
  next hk => exact ⟨Nat.le_refl k, hp.mp hk, fun c hc hlt => absurd hlt (by omega)⟩
  next hk => exact h.skip fun hb => hk (hp.mpr hb)

theorem IsLowestFrom.iff (h : IsLowestFrom 0 bad r) :
    (r = none ↔ ∀ c, ¬bad c) ∧ ∀ c, r = some c ↔ bad c ∧ ∀ c', c' < c → ¬bad c' := by
  cases r with
  | none => exact ⟨iff_of_true rfl fun c => h c (Nat.zero_le c), fun c => iff_of_false nofun fun hc => h c (Nat.zero_le c) hc.1⟩
  | some j =>
    obtain ⟨-, hj, hlow⟩ := h
    refine ⟨iff_of_false nofun fun hn => hn j hj, fun c => ⟨?_, fun hc => ?_⟩⟩
    · rintro ⟨⟩
      exact ⟨hj, fun c' => hlow c' (Nat.zero_le c')⟩
    · rcases Nat.lt_trichotomy j c with hlt | rfl | hgt
      · exact absurd hj (hc.2 j hlt)
      · rfl
      · exact absurd hc.1 (hlow c (Nat.zero_le c) hgt)

end

/-- A field of a burst from its first byte on; a byte that the burst lacks reads as 0. -/
theorem burstField_succ (data : List Byte) (off width : Nat) :
    burstField data off (width + 1) = (data[off]?.getD 0).toNat + 256 * burstField data (off + 1) width := by
  unfold burstField
  by_cases h : off < data.length
  · rw [List.drop_eq_getElem_cons h, List.take_succ_cons, List.getElem?_eq_getElem h]
    rfl
  · rw [List.drop_eq_nil_of_le (by omega), List.drop_eq_nil_of_le (by omega), List.getElem?_eq_none (by omega)]
    simp [leNat]

theorem burstField_zero (data : List Byte) (off : Nat) : burstField data off 0 = 0 := by simp [burstField, leNat]

/-- A malformed line start: the line in flight is cut, and the burst is malformed (R22 steps 2 and 4). -/
theorem landingBurst_malformed {w : FabricWrite} {n : Lane} {s : State} {code : Nat} (h : LineStarts w n s)
    (hno : NoInjection n s)
    (hf : tagFault s.livePlan.static.pixelBytes (s.entry n).winStride (windowData w n s) = some code) :
    landingBurst n w.addr.toNat (windowOffset w n s) w.tag w.data s
      = ({ raise (laneLatch n .malformed) (.malformed code (windowOffset w n s)) (cutLine n s) with
            lanes := s.lanes.set n { s.lanes[n].atLineStart with context := .sinking (burstSlot w n s) } },
          sunk w n s) := by
  have hplan : (beforeTag n s).livePlan = s.livePlan := cutLine_livePlan n s
  have hlanes : (beforeTag n s).lanes = s.lanes.set n s.lanes[n].atLineStart := rfl
  rw [landingBurst_start h, startLine_plain hno, hf]
  dsimp only
  rw [malformedBurst_eq, hplan, sinkWrite_sunk, hlanes, set_set, Fin.getElem_fin, Vector.getElem_set_self]
  rfl

/-- Settles O11: the chain of tests gives the lowest condition, and a malformed line start has only its latch, its cut and
its sink write. -/
theorem malformedTags : Obligations.MalformedTags := by
  refine ⟨fun pixelBytes winStride data => ?_, fun w n s code h hq hno hf => ?_⟩
  · intro byte pix bad
    have one (i : Nat) : burstField data i 1 = byte i := by rw [burstField_succ, burstField_zero]; rfl
    have two (i : Nat) : burstField data i 2 = byte i + 256 * byte (i + 1) := by rw [burstField_succ, one]
    refine IsLowestFrom.iff (.skip id ?_)
    unfold tagFault
    rw [one, one, two, two]
    refine .test Iff.rfl (.test Iff.rfl (.test Iff.rfl (.test Iff.rfl (.test Iff.rfl (.test Iff.rfl ?_)))))
    intro c hc
    have hbad : bad c = False := by
      match c, hc with
      | _ + 7, _ => rfl
    rw [hbad]
    exact id
  · obtain ⟨fs, hcut, -⟩ := cutLine_frames n s
    exact (exec_burst h.1.1 (landingBurst_malformed h hno hf)
      (settle_cutLine hq rfl (by rw [hcut]; rfl) (by rw [hcut]; rfl))).1

end Sys2Proof.Machine
end

section
/-! Well-formed line starts whose line is dropped: by the lock rules (R28 to R31), as LATE or as far ahead (R33, R70, R71,
R73), and in ARMED when it does not qualify as an origin. -/

namespace Sys2Proof.Machine

section
variable {w : FabricWrite} {n : Lane} {s u : State}

/-! ### The lane and the latch of the lock rule -/

theorem afterLock_lane (w : FabricWrite) (n : Lane) (s : State) :
    (afterLock w n s).lanes = s.lanes.set n (lockOf w n s).lane := raiseLock_lanes _ _ _

theorem raiseLock_setLanes (n : Lane) (r : LockResult) (s : State) (v : Vector LaneTracker 8) :
    { raiseLock n r s with lanes := v } = raiseLock n r { s with lanes := v } := by
  unfold raiseLock
  split <;> rfl

/-- The latch of a lock rule, by whether the rule raises one. -/
theorem raiseLock_cases {P : State → Prop} {r : LockResult} (h : P (raiseLock n r u)) :
    (r.raised = none → P u) ∧ ∀ k d, r.raised = some (k, d) → P (raise (laneLatch n k) d u) := by
  constructor
  · intro hr
    rwa [raiseLock, hr] at h
  · intro k d hr
    rwa [raiseLock, hr] at h

/-- What neither a raise nor a change of the lanes touches. -/
structure SameBesideLanes (s t : State) : Prop where
  table   : t.table = s.table
  patch   : t.patch = s.patch
  capture : t.capture = s.capture
  held    : t.held = s.held
  reg     : t.reg = s.reg
  plan    : t.plan = s.plan

theorem afterLock_same (w : FabricWrite) (n : Lane) (s : State) : SameBesideLanes s (afterLock w n s) := by
  unfold afterLock raiseLock
  split <;> exact ⟨rfl, rfl, rfl, rfl, rfl, rfl⟩

/-! ### A line start whose line is dropped -/

/-- The lanes once a line that is dropped has left its lane tracker as `l` (R22, R33): DISCARDING, or COMPLETE when the burst
holds the whole line. -/
def State.lanesDropped (s : State) (w : FabricWrite) (n : Lane) (l : LaneTracker) : Vector LaneTracker 8 :=
  s.lanes.set n { l with
    context := contextAfterBurst ((windowData w n s).length - 16) (.discarding (lineOf w n s)) }

/-- A well-formed line start after which the line is DISCARDING: the burst's bytes advance it, what is due is settled, and the
Report Unit chooses (log 7). -/
theorem exec_settled {l : LaneTracker} (h : LineStarts w n s) (hno : NoInjection n s) (ht : TagWellFormed w n s)
    (hlanes : u.lanes = s.lanes.set n l)
    (hl : lockAndPlace n (readTag (windowData w n s)) (lineOf w n s) (beforeTag n s)
      = setContext n (.discarding (lineOf w n s)) u) :
    exec (.lineStart w) s
      = .next (present { settle { u with lanes := s.lanesDropped w n l } with held := none }) := by
  have hr : landingBurst n w.addr.toNat (windowOffset w n s) w.tag w.data s
      = ({ u with lanes := s.lanesDropped w n l }, []) := by
    rw [landingBurst_wellFormed h hno ht, hl, burstInPlace_discarding (x := lineOf w n s) _ (by simp [setContext, onLane])]
    unfold setContext onLane State.lanesDropped
    simp only [hlanes, set_set, Fin.getElem_fin, Vector.getElem_set_self, List.length_drop]
  exact (exec_landed h.1.1 hr).1

/-- The line start of a quiet part, when the state `u` differs in lanes and latches alone: nothing is due. -/
theorem exec_discarded {l : LaneTracker} (h : LineStarts w n s) (hq : Quiet s) (hno : NoInjection n s)
    (ht : TagWellFormed w n s) (hu : SameBesideLanes s u) (hlanes : u.lanes = s.lanes.set n l)
    (hl : lockAndPlace n (readTag (windowData w n s)) (lineOf w n s) (beforeTag n s)
      = setContext n (.discarding (lineOf w n s)) u) :
    exec (.lineStart w) s = .next (present { u with lanes := s.lanesDropped w n l }) := by
  have hset : settle { u with lanes := s.lanesDropped w n l } = { u with lanes := s.lanesDropped w n l } :=
    settle_same hq hu.patch (by rw [hu.table]) (by rw [hu.table]) (by rw [hu.table]; exact id) (by rw [hu.capture])
  rw [exec_settled h hno ht hlanes hl, hset]
  show Host.Outcome.next (present { u with lanes := s.lanesDropped w n l, held := none }) = _
  rw [← h.1.1.2.1.1, ← hu.held]

/-- The latch of the lock rule is raised on the lanes as the drop leaves them. -/
theorem afterLock_setLanes (w : FabricWrite) (n : Lane) (s : State) (v : Vector LaneTracker 8) :
    { afterLock w n s with lanes := v } = raiseLock n (lockOf w n s) { s with lanes := v } := by
  unfold afterLock
  rw [raiseLock_setLanes]

/-- The seal test after a line that its lock rule drops holds nowhere: the lane stays LOCKED, or no frame is open. -/
theorem lockAndPlace_dropped (hf : NoLineInFlight n s) (ha : (lockOf w n s).accepted = false)
    (hseal : (s.lanes[n].state = .locked → (lockOf w n s).lane.state = .locked) ∨ s.table.openFrames = []) :
    lockAndPlace n (readTag (windowData w n s)) (lineOf w n s) (beforeTag n s)
      = setContext n (.discarding (lineOf w n s)) (afterLock w n s) := by
  rw [lockAndPlace_plain hf, ha, if_neg Bool.false_ne_true]
  split
  next hleft =>
    rcases hseal with hstay | hnone
    · exact absurd (hstay hleft.1) hleft.2
    · refine evalSealTest_of_not ?_
      unfold sealTest
      rw [show (setContext n (.discarding (lineOf w n s)) (afterLock w n s)).table = s.table from
        (afterLock_same w n s).table, hnone]
  next => rfl

end

/-- Settles O14: the lock rule's lane and latch, with the line DISCARDING. -/
theorem droppedLineIsDiscarded : Obligations.DroppedLineIsDiscarded := by
  intro w n s h hq hno hf ht ha hseal
  refine raiseLock_cases (P := fun u => exec (.lineStart w) s = .next (present u)) ?_
  rw [← afterLock_setLanes]
  exact exec_discarded h hq hno ht (afterLock_same w n s) (afterLock_lane w n s) (lockAndPlace_dropped hf ha hseal)

/-! ### LATE and far-ahead lines (R33, R70, R71, R73) -/

section
variable {w : FabricWrite} {n : Lane} {s u : State} {f : Frame} {b : Boundary}

/-- An accepted line of a device that is RUNNING is dealt with by `runLine`. -/
theorem lockAndPlace_running (hf : NoLineInFlight n s) (ha : (lockOf w n s).accepted = true)
    (hd : s.capture.device = .running) :
    lockAndPlace n (readTag (windowData w n s)) (lineOf w n s) (beforeTag n s)
      = runLine n (lineGiven w n s) (lineOf w n s) (afterLock w n s) := by
  rw [lockAndPlace_plain hf, ha, if_pos rfl]
  unfold handOn
  rw [(afterLock_same w n s).capture, hd]

theorem runLine_late {line : Line} {x : LineExtent} (h : attributeLine n line u = (.late, u)) :
    runLine n line x u = setContext n (.discarding x) (raise (laneLatch n .late) (.late line.seq line.pos) u) := by
  unfold runLine
  rw [h]
  rfl

theorem runLine_farAhead {line : Line} {x : LineExtent} (h : attributeLine n line u = (.farAhead, u)) :
    runLine n line x u = evalSealTest (setContext n (.discarding x)
      (onLane n (LaneTracker.lockLostAhead (u.entry n))
        (raise (laneLatch n .lockLost) (.lockLost .ahead line.seq line.pos line.gSeq line.gPos) u))) := by
  unfold runLine
  rw [h]
  rfl

theorem beyond_both (extent next : Nat) (d : Int) (h : ((extent + next : Nat) : Int) ≤ d) :
    ¬d < 0 ∧ ¬d < (extent : Int) ∧ ¬d < (extent : Int) + (next : Int) := by omega

/-- Attribution in CONTINUOUS mode with one open frame (R69 to R73), by the distance from its start. -/
theorem attributeLine_one (line : Line) (hm : u.capture.mode = .continuous) (ho : u.table.openFrames = [f])
    (hb : u.reg.next = some b) :
    let d := (line.pos - f.start).toInt
    (d < 0 → f.number ≠ 0 → attributeLine n line u = (.late, u))
      ∧ (0 ≤ d → d < ((f.rows * u.livePlan.static.phases : Nat) : Int) →
          attributeLine n line u = placeInOpen n 0 d.toNat line.time u)
      ∧ (((f.rows * u.livePlan.static.phases + (b.residue + u.livePlan.static.repeatLen) / 65536
            * u.livePlan.static.phases : Nat) : Int) ≤ d → attributeLine n line u = (.farAhead, u)) := by
  intro d
  have hextent : openExtent u.livePlan.static u.table.openFrames = f.rows * u.livePlan.static.phases := by
    rw [ho]
    simp [openExtent, Frame.extent]
  have hbase : baseCount b u.table.openFrames = f.start := by rw [ho]; rfl
  unfold attributeLine
  rw [hm]
  dsimp only
  unfold attributeContinuous
  rw [hb]
  dsimp only
  rw [hextent, hbase]
  refine ⟨fun hd hn => ?_, fun h0 h1 => ?_, fun hfar => ?_⟩
  · rw [if_pos hd, ho, behindAnswer, if_neg hn]
  · rw [if_neg (Int.not_lt.mpr h0), if_pos h1]
    have hl : locate u.livePlan.static u.table.openFrames (line.pos - f.start).toInt.toNat
        = some (0, (line.pos - f.start).toInt.toNat) := by
      rw [ho, locate, if_pos]
      have := Int.toNat_of_nonneg h0
      unfold Frame.extent
      omega
    rw [hl]
  · obtain ⟨h0, hopen, hnext⟩ := beyond_both _ _ d hfar
    rw [if_neg h0, if_neg hopen, if_neg (by unfold unopenedRows; exact_mod_cast hnext)]

theorem placeInOpen_late {i q : Nat} {time : Count} (hi : u.table.openFrames[i]? = some f)
    (hc : f.cursors[n] = .closed ∨ ∃ c, f.cursors[n] = .expects c ∧ q < c) : placeInOpen n i q time u = (.late, u) := by
  unfold placeInOpen
  rw [hi]
  dsimp only
  rcases hc with hc | ⟨c, hc, hlt⟩
  · rw [hc]
  · rw [hc]
    exact if_pos hlt

/-- A line of an accepted line start that is dropped as LATE. -/
theorem exec_late (h : LineStarts w n s) (hq : Quiet s) (hno : NoInjection n s) (hf : NoLineInFlight n s)
    (ht : TagWellFormed w n s) (ha : (lockOf w n s).accepted = true) (hd : s.capture.device = .running)
    (hlate : attributeLine n (lineGiven w n s) (afterLock w n s) = (.late, afterLock w n s)) :
    exec (.lineStart w) s = .next (present (raise (laneLatch n .late)
      (.late (readTag (windowData w n s)).seq (tagPosition w n s))
      (raiseLock n (lockOf w n s) { s with lanes := s.lanesDropped w n (lockOf w n s).lane }))) := by
  have hsame := afterLock_same w n s
  rw [← afterLock_setLanes]
  exact exec_discarded h hq hno ht ⟨hsame.table, hsame.patch, hsame.capture, hsame.held, hsame.reg, hsame.plan⟩
    (u := raise (laneLatch n .late) (.late (lineGiven w n s).seq (lineGiven w n s).pos) (afterLock w n s))
    (afterLock_lane w n s) ((lockAndPlace_running hf ha hd).trans (runLine_late hlate))

/-- A line of an accepted line start that lies too far ahead, with the only open frame provisional, so that no seal follows. -/
theorem exec_farAhead (h : LineStarts w n s) (hq : Quiet s) (hno : NoInjection n s) (hf : NoLineInFlight n s)
    (ht : TagWellFormed w n s) (ha : (lockOf w n s).accepted = true) (hd : s.capture.device = .running)
    (ho : s.table.openFrames = [f]) (hfix : f.fixed = false)
    (hfar : attributeLine n (lineGiven w n s) (afterLock w n s) = (.farAhead, afterLock w n s)) :
    exec (.lineStart w) s = .next (present (raise (laneLatch n .lockLost)
      (.lockLost .ahead (readTag (windowData w n s)).seq (tagPosition w n s) (lockOf w n s).gSeq (lockOf w n s).gPos)
      (raiseLock n (lockOf w n s)
        { s with lanes := s.lanesDropped w n ((lockOf w n s).lane.lockLostAhead (s.entry n)) }))) := by
  have hsame := afterLock_same w n s
  have hentry : (afterLock w n s).entry n = s.entry n := by unfold State.entry State.livePlan; rw [hsame.plan]
  rw [← afterLock_setLanes]
  refine exec_discarded h hq hno ht ⟨hsame.table, hsame.patch, hsame.capture, hsame.held, hsame.reg, hsame.plan⟩
    (u := onLane n (LaneTracker.lockLostAhead (s.entry n)) (raise (laneLatch n .lockLost)
      (.lockLost .ahead (lineGiven w n s).seq (lineGiven w n s).pos (lineGiven w n s).gSeq (lineGiven w n s).gPos)
      (afterLock w n s)))
    ?_ ((lockAndPlace_running hf ha hd).trans ((runLine_farAhead hfar).trans ?_))
  · show (afterLock w n s).lanes.set n ((afterLock w n s).lanes[n].lockLostAhead (s.entry n)) = _
    rw [afterLock_lane, set_set]
    simp only [Fin.getElem_fin, Vector.getElem_set_self]
  · rw [hentry]
    exact evalSealTest_of_not (sealTest_awaited (hsame.table ▸ ho) (.inl hfix))

end

/-- Settles O16: attribution by the distance from the one open frame's start. -/
theorem lateAndFarAheadLines : Obligations.LateAndFarAheadLines := by
  refine ⟨fun w n s f b h hq hno hf ht ha hd hm ho hb => ?_, fun w n s f b h hq hno hf ht ha hd hm ho hfix hb => ?_⟩
  all_goals
    have hsame := afterLock_same w n s
    have hplan : (afterLock w n s).livePlan = s.livePlan := by unfold State.livePlan; rw [hsame.plan]
    obtain ⟨hbehind, hopen, hahead⟩ := attributeLine_one (n := n) (u := afterLock w n s) (f := f) (b := b)
      (lineGiven w n s) (by rw [hsame.capture, hm]) (by rw [hsame.table, ho]) (by rw [hsame.reg, hb])
    rw [hplan] at hopen hahead
  · intro t d hcase
    refine raiseLock_cases (P := fun u => exec (.lineStart w) s
      = .next (present (raise (laneLatch n .late) (.late t.seq (tagPosition w n s)) u)))
      (exec_late h hq hno hf ht ha hd ?_)
    rcases hcase with ⟨hneg, hn⟩ | ⟨h0, h1, hc⟩
    · exact hbehind hneg hn
    · rw [hopen h0 h1]
      refine placeInOpen_late (f := f) (by rw [hsame.table, ho]; rfl) (hc.imp_right ?_)
      rintro ⟨c, hc, hlt⟩
      exact ⟨c, hc, (Int.toNat_lt h0).mpr hlt⟩
  · intro t p r d hfar lane dropped answers
    refine raiseLock_cases (P := fun u => exec (.lineStart w) s = .next (present (raise (laneLatch n .lockLost)
      (.lockLost .ahead t.seq (tagPosition w n s) r.gSeq r.gPos) u))) ?_
    exact exec_farAhead h hq hno hf ht ha hd ho hfix (hahead hfar)

end Sys2Proof.Machine
end

section
/-! Injections that fire on a line start (R38, R39): DROP and TAG_FAULT set it aside; SEQ_SKIP, ENC_SHIFT and MARK alter its
tag. -/

namespace Sys2Proof.Machine

/-! ### Bytes written over others -/

/-- Bytes written over others at an offset. -/
def overwrite (off : Nat) (bytes data : List Byte) : List Byte := data.take off ++ bytes ++ data.drop (off + bytes.length)

section
variable {off o width : Nat} {bytes data : List Byte}

theorem overwrite_length (h : off + bytes.length ≤ data.length) : (overwrite off bytes data).length = data.length := by
  simp only [overwrite, List.length_append, List.length_take, List.length_drop]
  omega

theorem overwrite_take {m : Nat} (h : off + bytes.length ≤ data.length) (hm : off + bytes.length ≤ m) :
    (overwrite off bytes data).take m = overwrite off bytes (data.take m) := by
  have hhead : (data.take off ++ bytes).length = off + bytes.length := by
    simp only [List.length_append, List.length_take]
    omega
  unfold overwrite
  rw [List.take_append, hhead, List.take_of_length_le (by omega), List.take_take, Nat.min_eq_left (by omega),
    List.drop_take]

theorem overwrite_drop {k : Nat} (h : off + bytes.length ≤ data.length) (hk : off + bytes.length ≤ k) :
    (overwrite off bytes data).drop k = data.drop k := by
  have hhead : (data.take off ++ bytes).length = off + bytes.length := by
    simp only [List.length_append, List.length_take]
    omega
  unfold overwrite
  rw [List.drop_append, hhead, List.drop_eq_nil_of_le (by omega), List.drop_drop, List.nil_append]
  congr 1
  omega

theorem overwrite_getElem?_apart {i : Nat} (h : off + bytes.length ≤ data.length) (hi : i < off ∨ off + bytes.length ≤ i) :
    (overwrite off bytes data)[i]? = data[i]? := by
  unfold overwrite
  rcases hi with hi | hi
  · rw [List.append_assoc, List.getElem?_append_left (by simp only [List.length_take]; omega), List.getElem?_take_of_lt hi]
  · have hhead : (data.take off ++ bytes).length = off + bytes.length := by
      simp only [List.length_append, List.length_take]
      omega
    rw [List.getElem?_append_right (by omega), hhead, List.getElem?_drop]
    congr 1
    omega

/-- A field of a burst depends on its own bytes alone. -/
theorem burstField_congr {a b : List Byte} (h : ∀ i, o ≤ i → i < o + width → a[i]? = b[i]?) :
    burstField a o width = burstField b o width := by
  induction width generalizing o with
  | zero => rw [burstField_zero, burstField_zero]
  | succ width ih =>
    rw [burstField_succ, burstField_succ, h o (Nat.le_refl o) (by omega), ih fun i h1 h2 => h i (by omega) (by omega)]

/-- A field apart from the bytes written stays. -/
theorem burstField_overwrite_apart (h : off + bytes.length ≤ data.length)
    (hapart : o + width ≤ off ∨ off + bytes.length ≤ o) :
    burstField (overwrite off bytes data) o width = burstField data o width :=
  burstField_congr fun i h1 h2 => overwrite_getElem?_apart h (by omega)

/-- The field written holds the bytes written. -/
theorem burstField_overwrite_same (h : off + bytes.length ≤ data.length) (hw : bytes.length = width) :
    burstField (overwrite off bytes data) off width = leNat bytes := by
  unfold burstField overwrite
  rw [List.append_assoc, List.drop_append, List.length_take, Nat.min_eq_left (by omega), Nat.sub_self,
    List.drop_eq_nil_of_le (by simp only [List.length_take]; omega), List.nil_append, List.drop_zero, List.take_append, hw,
    Nat.sub_self, List.take_zero, List.append_nil, List.take_of_length_le (by omega)]

end

/-! ### The altered tag (R39) -/

/-- A line start's bytes with its tag, which read t, as an injection of this kind leaves it. -/
def injectedBytes (p : StaticPlan) (t : LineTag) (data : List Byte) : InjectionKind → List Byte
  | .drop => data
  | .seqSkip => overwrite 2 (leBytes 2 (t.seq + 1).toNat) data
  | .encShift => overwrite 4 (leBytes 4 (t.enc + BitVec.ofNat 32 p.phases).toNat) data
  | .mark => overwrite 1 [1] data
  | .tagFault => data

section
variable {p : StaticPlan} {t : LineTag} {data : List Byte}

theorem injectedWrite_eq (kind : InjectionKind) (w : FabricWrite) (n : Lane) (s : State) :
    injectedWrite kind w n s
      = { w with data := injectedBytes s.livePlan.static (readTag (windowData w n s)) w.data kind } := by
  cases kind <;> rfl

theorem injectedBytes_length (kind : InjectionKind) (h : 16 ≤ data.length) :
    (injectedBytes p t data kind).length = data.length := by
  cases kind with
  | drop => rfl
  | seqSkip => exact overwrite_length (by rw [leBytes_length]; omega)
  | encShift => exact overwrite_length (by rw [leBytes_length]; omega)
  | mark => exact overwrite_length (by rw [List.length_singleton]; omega)
  | tagFault => rfl

theorem injectedBytes_take (kind : InjectionKind) {m : Nat} (h : 16 ≤ data.length) (hm : 16 ≤ m) :
    (injectedBytes p t data kind).take m = injectedBytes p t (data.take m) kind := by
  cases kind with
  | drop => rfl
  | seqSkip => exact overwrite_take (by rw [leBytes_length]; omega) (by rw [leBytes_length]; omega)
  | encShift => exact overwrite_take (by rw [leBytes_length]; omega) (by rw [leBytes_length]; omega)
  | mark => exact overwrite_take (by rw [List.length_singleton]; omega) (by rw [List.length_singleton]; omega)
  | tagFault => rfl

/-- No injection alters a pixel byte. -/
theorem injectedBytes_drop (kind : InjectionKind) (h : 16 ≤ data.length) :
    (injectedBytes p t data kind).drop 16 = data.drop 16 := by
  cases kind with
  | drop => rfl
  | seqSkip => exact overwrite_drop (by rw [leBytes_length]; omega) (by rw [leBytes_length]; omega)
  | encShift => exact overwrite_drop (by rw [leBytes_length]; omega) (by rw [leBytes_length]; omega)
  | mark => exact overwrite_drop (by rw [List.length_singleton]; omega) (by rw [List.length_singleton]; omega)
  | tagFault => rfl

theorem tagFault_length {pixelBytes winStride : Nat} (h : tagFault pixelBytes winStride data = none) : 16 ≤ data.length := by
  unfold tagFault at h
  split at h
  · cases h
  · next hlen => exact Nat.le_of_not_lt hlen

theorem tagFault_flags {pixelBytes winStride : Nat} (h : tagFault pixelBytes winStride data = none) :
    ¬1 < burstField data 1 1 := by
  have hlen := tagFault_length h
  intro hbad
  unfold tagFault at h
  rw [if_neg (by unfold Config.tagBytes; omega), if_pos hbad] at h
  split at h <;> cases h

/-- Bytes written into the flags, the SEQ or the ENC of a well-formed tag leave it well formed, when the flags still are. -/
theorem tagFault_overwrite {off winStride : Nat} {bytes : List Byte} (h : tagFault p.pixelBytes winStride data = none)
    (ho : 1 ≤ off) (hend : off + bytes.length ≤ 8) (hflags : ¬1 < burstField (overwrite off bytes data) 1 1) :
    tagFault p.pixelBytes winStride (overwrite off bytes data) = none := by
  have hlen := tagFault_length h
  have apart (o width : Nat) (ha : o + width ≤ off ∨ off + bytes.length ≤ o) :=
    burstField_overwrite_apart (o := o) (width := width) (data := data) (by omega) ha
  have hflags' := tagFault_flags h
  unfold tagFault at h ⊢
  rw [if_neg hflags'] at h
  rw [if_neg hflags, overwrite_length (by omega), apart 0 1 (by omega), apart 10 2 (by omega), apart 8 2 (by omega)]
  exact h

section
variable {bytes : List Byte}

theorem readTag_overwrite_seq (h : 16 ≤ data.length) (hb : bytes.length = 2) :
    readTag (overwrite 2 bytes data) = { readTag data with seq := BitVec.ofNat 16 (leNat bytes) } := by
  have apart (o width : Nat) (ha : o + width ≤ 2 ∨ 4 ≤ o) :=
    burstField_overwrite_apart (o := o) (width := width) (data := data) (off := 2) (bytes := bytes) (by omega) (by omega)
  rw [readTag, burstField_overwrite_same (by omega) hb, apart 4 4 (by omega), apart 8 2 (by omega), apart 1 1 (by omega),
    apart 12 4 (by omega)]
  rfl

theorem readTag_overwrite_enc (h : 16 ≤ data.length) (hb : bytes.length = 4) :
    readTag (overwrite 4 bytes data) = { readTag data with enc := BitVec.ofNat 32 (leNat bytes) } := by
  have apart (o width : Nat) (ha : o + width ≤ 4 ∨ 8 ≤ o) :=
    burstField_overwrite_apart (o := o) (width := width) (data := data) (off := 4) (bytes := bytes) (by omega) (by omega)
  rw [readTag, burstField_overwrite_same (by omega) hb, apart 2 2 (by omega), apart 8 2 (by omega), apart 1 1 (by omega),
    apart 12 4 (by omega)]
  rfl

theorem readTag_overwrite_flags (h : 16 ≤ data.length) (hb : bytes.length = 1) :
    readTag (overwrite 1 bytes data) = { readTag data with mark := decide (leNat bytes = 1) } := by
  have apart (o width : Nat) (ha : o + width ≤ 1 ∨ 2 ≤ o) :=
    burstField_overwrite_apart (o := o) (width := width) (data := data) (off := 1) (bytes := bytes) (by omega) (by omega)
  rw [readTag, burstField_overwrite_same (by omega) hb, apart 2 2 (by omega), apart 4 4 (by omega), apart 8 2 (by omega),
    apart 12 4 (by omega)]
  rfl

end

theorem ofNat_leNat_of_toNat {k width : Nat} (hk : 2 ^ k = 256 ^ width) (v : BitVec k) :
    BitVec.ofNat k (leNat (leBytes width v.toNat)) = v := by
  rw [leNat_leBytes, ← hk, Nat.mod_eq_of_lt v.isLt, BitVec.ofNat_toNat, BitVec.setWidth_eq]

/-- The altered bytes hold the altered tag. -/
theorem readTag_injectedBytes (kind : InjectionKind) (h : 16 ≤ data.length) :
    readTag (injectedBytes p (readTag data) data kind) = injectTag p (some kind) (readTag data) := by
  cases kind with
  | drop => rfl
  | tagFault => rfl
  | seqSkip => exact (readTag_overwrite_seq h (leBytes_length _ _)).trans (by rw [ofNat_leNat_of_toNat rfl]; rfl)
  | encShift => exact (readTag_overwrite_enc h (leBytes_length _ _)).trans (by rw [ofNat_leNat_of_toNat rfl]; rfl)
  | mark => exact readTag_overwrite_flags h rfl

/-- The altered tag is well formed like the tag before. -/
theorem tagFault_injectedBytes (kind : InjectionKind) {winStride : Nat}
    (h : tagFault p.pixelBytes winStride data = none) :
    tagFault p.pixelBytes winStride (injectedBytes p t data kind) = none := by
  have hlen := tagFault_length h
  have flagsApart {off : Nat} {bytes : List Byte} (ho : 2 ≤ off) (hend : off + bytes.length ≤ 8) :
      tagFault p.pixelBytes winStride (overwrite off bytes data) = none :=
    tagFault_overwrite h (by omega) hend
      (by rw [burstField_overwrite_apart (by omega) (by omega)]; exact tagFault_flags h)
  cases kind with
  | drop => exact h
  | tagFault => exact h
  | seqSkip => exact flagsApart (by omega) (by rw [leBytes_length]; omega)
  | encShift => exact flagsApart (by omega) (by rw [leBytes_length])
  | mark =>
    refine tagFault_overwrite h (Nat.le_refl 1) (by rw [List.length_singleton]; omega) ?_
    rw [burstField_overwrite_same (bytes := [1]) (width := 1) (by rw [List.length_singleton]; omega) rfl]
    decide

end

/-! ### The line start of a lane whose injection fires -/

section
variable {w : FabricWrite} {n : Lane} {s : State} {kind : InjectionKind}

/-- The injection of a lane is spent. -/
def spendInjection (n : Lane) (s : State) : State :=
  { s with lanes := s.lanes.set n { s.lanes[n] with injection := none } }

theorem startLine_drop (h : s.lanes[n].injection = some { kind := .drop, countdown := 1 }) (addr off : Nat) (tag : Byte)
    (bytes : List Byte) :
    startLine n addr off tag bytes s = ({ s with lanes := s.lanes.set n { s.lanes[n] with
      injection := none, setAside := some { slot := off / (s.entry n).winStride, mode := .absorb } } }, []) := by
  unfold startLine onLane
  rw [h]
  simp only [countDown, Nat.le_refl, if_true, set_set, Fin.getElem_fin, Vector.getElem_set_self]
  rfl

theorem startLine_tagFault (h : s.lanes[n].injection = some { kind := .tagFault, countdown := 1 }) (addr off : Nat)
    (tag : Byte) (bytes : List Byte) :
    startLine n addr off tag bytes s = rejectBurst n addr off tag bytes { s with lanes := s.lanes.set n { s.lanes[n] with
      injection := none, setAside := some { slot := off / (s.entry n).winStride, mode := .reject } } } := by
  unfold startLine onLane
  rw [h]
  simp only [countDown, Nat.le_refl, if_true, set_set, Fin.getElem_fin, Vector.getElem_set_self]
  rfl

theorem rejectBurst_setLanes (w : FabricWrite) (n : Lane) (off : Nat) (s : State) (v : Vector LaneTracker 8) :
    rejectBurst n w.addr.toNat off w.tag (windowData w n s) { s with lanes := v }
      = ({ raise (laneLatch n .tagReject) (.tagReject w.tag off) s with lanes := v }, sunk w n s) := by
  rw [← sinkWrite_sunk]
  rfl

/-- An injection that alters the tag is spent, and goes with the line start. -/
theorem startLine_alters (h : s.lanes[n].injection = some { kind := kind, countdown := 1 })
    (hk : kind = .seqSkip ∨ kind = .encShift ∨ kind = .mark) (addr off : Nat) (tag : Byte) (bytes : List Byte) :
    startLine n addr off tag bytes s = beginLine n addr off (some kind) bytes (spendInjection n s) := by
  unfold startLine
  rw [h]
  rcases hk with rfl | rfl | rfl <;> rfl

/-- A lane without an injection begins the line with the tag as it is. -/
theorem startLine_spent (n : Lane) (addr off : Nat) (tag : Byte) (bytes : List Byte) (s : State) :
    startLine n addr off tag bytes (spendInjection n s) = beginLine n addr off none bytes (spendInjection n s) := by
  unfold startLine spendInjection onLane
  simp only [countDown, set_set, Fin.getElem_fin, Vector.getElem_set_self]

/-- A malformed tag is dealt with whatever injection fires on it (R39). -/
theorem beginLine_malformed {bytes : List Byte} {code : Nat}
    (h : tagFault s.livePlan.static.pixelBytes (s.entry n).winStride bytes = some code) (addr off : Nat)
    (fired : Option InjectionKind) : beginLine n addr off fired bytes s = beginLine n addr off none bytes s := by
  unfold beginLine
  dsimp only
  rw [show tagFault s.livePlan.static.pixelBytes s.livePlan.static.lanes[n].winStride bytes = some code from h]

/-- The altered bytes without an injection begin the line that the injection makes of the bytes. -/
theorem beginLine_injected {bytes : List Byte}
    (h : tagFault s.livePlan.static.pixelBytes (s.entry n).winStride bytes = none) (addr off : Nat) (kind : InjectionKind) :
    beginLine n addr off none (injectedBytes s.livePlan.static (readTag bytes) bytes kind) s
      = beginLine n addr off (some kind) bytes s := by
  have hlen := tagFault_length h
  have hfault := tagFault_injectedBytes (t := readTag bytes) kind h
  unfold State.entry at h hfault
  unfold beginLine
  dsimp only
  rw [h, hfault]
  dsimp only
  rw [readTag_injectedBytes kind hlen]
  rw [show Config.tagBytes = 16 from rfl, injectedBytes_drop kind hlen]
  rfl

end

/-! ### The held request of an altered line start -/

/-- A state with another write as the request held. -/
def holdingWrite (w : FabricWrite) (s : State) : State := { s with held := s.held.map fun h => { h with request := .write w } }

theorem chooseRecord_held (s : State) (h : Option HeldRequest) :
    chooseRecord { s with held := h } = { chooseRecord s with held := h } := by
  unfold chooseRecord
  dsimp only
  split
  · rfl
  · split
    · rfl
    · split <;> rfl

/-- The Report Unit's choice does not read the port. -/
theorem present_held (s : State) (h : Option HeldRequest) : present { s with held := h } = { present s with held := h } := by
  have choose : chooseWrite { s with held := h } = { chooseWrite s with held := h } := by
    unfold chooseWrite
    dsimp only
    split
    · rfl
    · split
      · rfl
      · split
        · rfl
        · have hroom : ringHasRoom { s with held := h } = ringHasRoom s := rfl
          rw [hroom]
          split
          · exact chooseRecord_held s h
          · rfl
  unfold present
  dsimp only
  split
  · rfl
  · exact choose

theorem present_holdingWrite (w : FabricWrite) (s : State) : present (holdingWrite w s) = holdingWrite w (present s) := by
  unfold holdingWrite
  rw [present_held, (present_chosen s).path.held]

theorem hold_holdingWrite (w v : FabricWrite) (lane : Option Lane) (ds : List Derived) (s : State) :
    hold (.write w) lane ds s = holdingWrite w (hold (.write v) lane ds s) := by
  cases ds <;> rfl

section
variable {w : FabricWrite} {n : Lane} {s : State} {kind : InjectionKind}

/-- A line start of a quiet part that changes lanes alone. -/
theorem exec_lanes {v : Vector LaneTracker 8} (hl : Lands w n s) (hq : Quiet s)
    (hr : landingBurst n w.addr.toNat (windowOffset w n s) w.tag w.data s = ({ s with lanes := v }, [])) :
    exec (.lineStart w) s = .next { s with lanes := v } := by
  have hpresent : present { s with lanes := v, held := none } = { s with lanes := v, held := none } :=
    present_same hq rfl rfl rfl rfl
  rw [(exec_burst hl hr (settle_same hq rfl rfl rfl id rfl)).1]
  show Host.Outcome.next (present { s with lanes := v, held := none }) = _
  rw [hpresent, ← hl.2.1.1]

theorem spendInjection_lane (n : Lane) (s : State) :
    (spendInjection n s).lanes[n] = { s.lanes[n] with injection := none } := by
  unfold spendInjection
  simp only [Fin.getElem_fin, Vector.getElem_set_self]

/-- A line start stays one once the injection is spent. -/
theorem lineStarts_spent (h : LineStarts w n s) : LineStarts w n (spendInjection n s) := by
  obtain ⟨⟨hl, hoff, hreq⟩, hstart⟩ := h
  refine ⟨⟨hl, ?_, hreq⟩, hstart⟩
  rw [spendInjection_lane]
  exact hoff

theorem lineStarts_injected (h : LineStarts w n s) (hlen : 16 ≤ (windowData w n s).length) (kind : InjectionKind) :
    LineStarts (injectedWrite kind w n s) n s := by
  have hdata : (injectedBytes s.livePlan.static (readTag (windowData w n s)) w.data kind).length = w.data.length :=
    injectedBytes_length kind (by unfold windowData at hlen; rw [List.length_take] at hlen; omega)
  rw [injectedWrite_eq]
  obtain ⟨⟨⟨hok, hl⟩, hpasses⟩, hstart⟩ := h
  refine ⟨⟨⟨?_, hl⟩, hpasses⟩, hstart⟩
  unfold FabricWrite.ok at hok ⊢
  rwa [hdata]

theorem windowData_injected (hlen : 16 ≤ (windowData w n s).length) (kind : InjectionKind) :
    windowData (injectedWrite kind w n s) n s
      = injectedBytes s.livePlan.static (readTag (windowData w n s)) (windowData w n s) kind := by
  have hdata : 16 ≤ (s.entry n).winBytes - windowOffset w n s ∧ 16 ≤ w.data.length := by
    unfold windowData at hlen
    rw [List.length_take] at hlen
    omega
  rw [injectedWrite_eq]
  exact injectedBytes_take kind hdata.2 hdata.1

/-- The lane's work on the altered line start, once the injection is spent, is its work on the line start. -/
theorem landingBurst_injected (h : LineStarts w n s) (hk : kind = .seqSkip ∨ kind = .encShift ∨ kind = .mark)
    (hi : s.lanes[n].injection = some { kind := kind, countdown := 1 }) (ht : TagWellFormed w n s) :
    landingBurst n w.addr.toNat (windowOffset w n s) w.tag w.data s
      = landingBurst n w.addr.toNat (windowOffset w n s) w.tag (injectedWrite kind w n s).data (spendInjection n s) := by
  have hlen := tagFault_length ht
  have hspent := landingBurst_start (lineStarts_spent (lineStarts_injected h hlen kind))
  have hdata : windowData (injectedWrite kind w n s) n (spendInjection n s)
      = injectedBytes s.livePlan.static (readTag (windowData w n s)) (windowData w n s) kind :=
    windowData_injected hlen kind
  rw [hdata, startLine_spent] at hspent
  rw [landingBurst_start h, startLine_alters hi hk]
  refine (beginLine_injected (s := spendInjection n s) ht _ _ kind).symm.trans ?_
  rw [injectedWrite_eq] at hspent ⊢
  exact hspent.symm

theorem landingBurst_malformed_spent (h : LineStarts w n s) (hk : kind = .seqSkip ∨ kind = .encShift ∨ kind = .mark)
    (hi : s.lanes[n].injection = some { kind := kind, countdown := 1 }) (ht : ¬TagWellFormed w n s) :
    landingBurst n w.addr.toNat (windowOffset w n s) w.tag w.data s
      = landingBurst n w.addr.toNat (windowOffset w n s) w.tag w.data (spendInjection n s) := by
  obtain ⟨code, hcode⟩ := Option.ne_none_iff_exists'.mp ht
  rw [landingBurst_start h, startLine_alters hi hk]
  refine (beginLine_malformed (s := spendInjection n s) hcode _ _ _).trans ?_
  rw [← startLine_spent]
  exact (landingBurst_start (lineStarts_spent h)).symm

end

/-- Settles O12: an injection that alters the tag gives what the lane makes of the altered bytes once it is spent. -/
theorem injectedLinesAreSetAside : Obligations.InjectedLinesAreSetAside := by
  refine ⟨fun w n s h hq hi => ?_, fun w n s h hq hi => ?_, fun w n s kind h hk hi => ⟨fun ht => ?_, fun ht => ?_⟩⟩
  · have hr := (landingBurst_start h).trans (startLine_drop hi _ _ _ _)
    exact exec_lanes h.1.1 hq hr
  · have hr := (landingBurst_start h).trans (startLine_tagFault hi _ _ _ _)
    exact (exec_burst h.1.1 (hr.trans (rejectBurst_setLanes _ _ _ _ _)) (settle_same hq rfl rfl rfl id rfl)).1
  · have hlen := tagFault_length ht
    refine ⟨_, (exec_landing (lineStarts_spent (lineStarts_injected h hlen kind)).1.1).1, ?_⟩
    rw [(exec_landing h.1.1).1]
    have hr := landingBurst_injected h hk hi ht
    show _ = Host.Outcome.next (holdingWrite w _)
    unfold landingEffect
    rw [← present_holdingWrite, ← hold_holdingWrite]
    rw [injectedWrite_eq] at hr ⊢
    exact congrArg (fun r => Host.Outcome.next (present (hold (.write w) (some n) r.2 (settle r.1)))) hr
  · rw [(exec_landing h.1.1).1]
    refine Eq.trans ?_ (exec_landing (lineStarts_spent h).1.1).1.symm
    have hr := landingBurst_malformed_spent h hk hi ht
    unfold landingEffect
    exact congrArg (fun r => Host.Outcome.next (present (hold (.write w) (some n) r.2 (settle r.1)))) hr

end Sys2Proof.Machine
end

section
/-! What an accepted line makes of the open frames: the record of its frame (R80), the frames it passes (R81), the rows that
follow (R54), the seal timer (R112), and a frame that opens (R53, R55, R77 to R79). -/

namespace Sys2Proof.Machine

section
variable {p : StaticPlan} {n : Lane} {s : State} {f o : Frame} {c q : Nat} {time : Count}

/-! ### The record of the line's frame, and the frames before it -/

theorem recordUpTo_expects (hc : f.cursors[n] = .expects c) (stop : Nat) : f.recordUpTo n stop = { f with
    missing := f.missing + (stop - c)
    runs := if c < stop ∧ f.runs.length < 16 then f.runs ++ [{ lane := n, first := c, count := stop - c }] else f.runs
    overflow := f.overflow || decide (c < stop ∧ ¬f.runs.length < 16) } := by
  by_cases hlt : c < stop
  · by_cases hroom : f.runs.length < 16 <;>
      simp [Frame.recordUpTo, Frame.recordRun, Config.maxRuns, hc, hlt, hroom]
  · simp [Frame.recordUpTo, hc, hlt, Nat.sub_eq_zero_of_le (Nat.le_of_not_lt hlt)]

/-- Delivering a line does to the record what R80 and R82 say, whatever N then becomes. -/
theorem lineCounted_deliver (p : StaticPlan) (q : Nat) (time : Count) (hc : f.cursors[n] = .expects c) (rows : Nat) :
    LineCounted p n c q time f { f.deliver p n q time with rows := rows } := by
  have htime : f.firstTime.or (some time) = some (f.firstTime.getD time) := by cases f.firstTime <;> rfl
  unfold LineCounted Frame.deliver
  rw [recordUpTo_expects hc]
  cases f.hi <;> simp [setLaneBit, htime]

theorem deliver_rows (p : StaticPlan) (q : Nat) (time : Count) (hc : f.cursors[n] = .expects c) :
    (f.deliver p n q time).rows = f.rows ∧ (f.deliver p n q time).fixed = f.fixed := by
  unfold Frame.deliver
  rw [recordUpTo_expects hc]
  exact ⟨rfl, rfl⟩

theorem updateAt_append (g h : Frame → Frame) (older : List Frame) (f : Frame) (younger : List Frame) :
    updateAt g h older.length (older ++ f :: younger) = older.map g ++ h f :: younger := by
  induction older with
  | nil => rfl
  | cons o older ih => exact congrArg (g o :: ·) ih

/-! ### The seal timer (R112) -/

theorem timerOnceSeen_same {run : RunPlan} (t : SealTimer) : timerOnceSeen o.endSeen run o t = t := by
  cases t with
  | running => rfl
  | idle =>
    show (if _ then _ else _) = _
    rw [if_neg]
    rintro ⟨hclear, hset, -⟩
    rw [hclear] at hset
    cases hset

theorem timerOnEndSeen_eq {rest : List Frame} (h : s.table.openFrames = o :: rest) (before : Bool) :
    timerOnEndSeen before s
      = { s with table := { s.table with sealTimer := timerOnceSeen before s.livePlan.run o s.table.sealTimer } } := by
  have same (hb : timerOnceSeen before s.livePlan.run o s.table.sealTimer = s.table.sealTimer) :
      s = { s with table := { s.table with sealTimer := timerOnceSeen before s.livePlan.run o s.table.sealTimer } } := by
    rw [hb]
  have hseen : oldestEndSeen s.table = o.endSeen := by
    unfold oldestEndSeen
    rw [h]
  unfold timerOnEndSeen
  rw [hseen]
  split
  next hb =>
    refine same ?_
    subst hb
    cases s.table.sealTimer <;> rfl
  next hb =>
    obtain rfl : before = false := Bool.eq_false_iff.mpr hb
    split
    next => exact loadSealTimer_eq h
    next ho =>
      refine same ?_
      rw [← Bool.eq_false_iff.mpr ho]
      exact timerOnceSeen_same _

/-! ### The rows that follow (R54) -/

theorem recompute_newest {older : List Frame} (h : s.table.openFrames = older ++ [f]) :
    recompute s = if f.fixed then s else { s with
      table := { s.table with
        openFrames := older ++ [{ f with rows := provisionalRows s.livePlan s.reg.correction f }] }
      reg := { s.reg with next := some (nextBoundary s.livePlan s.reg.correction f) } } := by
  unfold recompute
  rw [h, List.getLast?_append, onNewest_append]
  rfl

theorem raisesHi_iff {row : Nat} {hi : Option Nat} : raisesHi row hi = true ↔ ∀ h, hi = some h → h < row := by
  cases hi with
  | none => exact iff_of_true rfl nofun
  | some h => simp [raisesHi]

/-- The record of a placed line with the rows that follow from it: the newest frame's provisional N is recomputed when its
highest row rises (R54). -/
theorem recompute_deliver {u : State} {older younger : List Frame} (time : Count) (hc : f.cursors[n] = .expects c)
    (hplan : u.plan = s.plan) (hreg : u.reg = s.reg)
    (ho : u.table.openFrames = older ++ f.deliver s.livePlan.static n q time :: younger) :
    let row := q / s.livePlan.static.phases
    let t := if raisesHi row f.hi = true ∧ younger = [] then recompute u else u
    ∃ g, LineCounted s.livePlan.static n c q time f g ∧ RowsFollow (younger = []) row f g s t
      ∧ t = { u with table := { u.table with openFrames := older ++ g :: younger }, reg := t.reg } := by
  intro row t
  have hlive : u.livePlan = s.livePlan := by unfold State.livePlan; rw [hplan]
  obtain ⟨hrows, hfixed⟩ := deliver_rows s.livePlan.static q time hc
  by_cases hrec : younger = [] ∧ f.fixed = false ∧ ∀ h, f.hi = some h → h < row
  · obtain ⟨rfl, hfix, hrise⟩ := hrec
    have ht : t = recompute u := if_pos ⟨raisesHi_iff.mpr hrise, rfl⟩
    replace ht := ht.trans ((recompute_newest ho).trans (if_neg (by rw [hfixed, hfix]; exact Bool.false_ne_true)))
    rw [hlive, hreg] at ht
    refine ⟨_, lineCounted_deliver _ q time hc
      (provisionalRows s.livePlan s.reg.correction (f.deliver s.livePlan.static n q time)),
      ⟨fun _ => ⟨rfl, ?_⟩, fun hno => absurd ⟨rfl, hfix, hrise⟩ hno⟩, ?_⟩
    · rw [ht]
      rfl
    · rw [ht]
  · have ht : t = u := by
      by_cases hrise : raisesHi row f.hi = true ∧ younger = []
      · obtain ⟨hrise, rfl⟩ := hrise
        have hfix : f.fixed = true := by
          rw [← Bool.not_eq_false]
          exact fun hfix => hrec ⟨rfl, hfix, raisesHi_iff.mp hrise⟩
        refine (if_pos ⟨hrise, rfl⟩).trans ?_
        rw [recompute_newest ho, hfixed, if_pos hfix]
      · exact if_neg hrise
    refine ⟨_, lineCounted_deliver _ q time hc f.rows, ⟨fun hyes => absurd hyes hrec, fun _ => ⟨rfl, ?_⟩⟩, ?_⟩
    · rw [ht, hreg]
    · rw [ht, ← hrows, ← ho]

/-- Placing a line of a lane whose cursor in the line's frame is open (R80, R81, R54, R112). -/
theorem placeLine_eq {older younger : List Frame} {o : Frame} (time : Count)
    (ho : s.table.openFrames = older ++ f :: younger) (hc : f.cursors[n] = .expects c)
    (hhead : (older ++ f :: younger).head? = some o) :
    let t := placeLine n older.length q time s
    ∃ g o', LineCounted s.livePlan.static n c q time f g
      ∧ RowsFollow (younger = []) (q / s.livePlan.static.phases) f g s t
      ∧ (older.map (Frame.passBy s.livePlan.static n) ++ g :: younger).head? = some o'
      ∧ t = { s with
        table := { s.table with
          openFrames := older.map (Frame.passBy s.livePlan.static n) ++ g :: younger
          sealTimer := timerOnceSeen o.endSeen s.livePlan.run o' s.table.sealTimer }
        reg := t.reg } := by
  intro t
  have hrises : ((s.table.openFrames[older.length]?).any fun f => raisesHi (q / s.livePlan.static.phases) f.hi)
      = raisesHi (q / s.livePlan.static.phases) f.hi := by
    rw [ho, List.getElem?_append_right (Nat.le_refl _), Nat.sub_self]
    rfl
  have hnewest : older.length + 1 = (older ++ f :: younger).length ↔ younger = [] := by
    rw [← List.length_eq_zero_iff]
    simp only [List.length_append, List.length_cons]
    omega
  have hseen : oldestEndSeen s.table = o.endSeen := by
    unfold oldestEndSeen
    rw [ho]
    cases older with
    | nil => exact congrArg Frame.endSeen (Option.some.inj hhead)
    | cons a as => exact congrArg Frame.endSeen (Option.some.inj hhead)
  generalize hu : ({ s with table := { s.table with
    openFrames := older.map (Frame.passBy s.livePlan.static n) ++ f.deliver s.livePlan.static n q time :: younger } } : State)
    = u
  obtain ⟨g, hcount, hrows, hg⟩ := recompute_deliver (s := s) (u := u) (younger := younger) time hc
    (by rw [← hu]) (by rw [← hu]) (by rw [← hu])
  have ht : t = timerOnEndSeen o.endSeen
      (if raisesHi (q / s.livePlan.static.phases) f.hi = true ∧ younger = [] then recompute u else u) := by
    show placeLine n older.length q time s = _
    unfold placeLine
    dsimp only
    rw [hrises, hseen, ho, updateAt_append, ← hu]
    simp only [Bool.and_eq_true, decide_eq_true_eq, hnewest]
  obtain ⟨o', ho'⟩ : ∃ o', (older.map (Frame.passBy s.livePlan.static n) ++ g :: younger).head? = some o' := by
    cases older with
    | nil => exact ⟨g, rfl⟩
    | cons a as => exact ⟨_, rfl⟩
  rw [hg] at ht
  generalize hv : (if raisesHi (q / s.livePlan.static.phases) f.hi = true ∧ younger = [] then recompute u else u) = v
    at hrows hg ht
  obtain ⟨rest, hrest⟩ := List.head?_eq_some_iff.mp ho'
  rw [timerOnEndSeen_eq (o := o') hrest] at ht
  have hreg : t.reg = v.reg := by rw [ht]
  refine ⟨g, o', hcount, ?_, ho', ?_⟩
  · unfold RowsFollow at hrows ⊢
    rwa [hreg]
  · rw [hreg, ht, ← hu]
    rfl

/-! ### A frame that opens (R53, R55, R77 to R79) -/

/-- The search for a slot finds a FREE one (R78). -/
theorem findFreeSlot_free {slots : Nat} {t : FrameTable} {k : Fin 32} (h : findFreeSlot slots t = some k) :
    t.slots[k] = .free := by
  unfold findFreeSlot at h
  simpa only [decide_eq_true_eq] using List.find?_some h

/-- The slots once a frame has opened with this slot, or without one (R78, R79). -/
def slotsOpened (slots : Vector SlotState 32) : Option (Fin 32) → Vector SlotState 32
  | none => slots
  | some k => slots.set k .filling

/-- The slot last allocated once a frame has opened. -/
def lastOpened (last : Option (Fin 32)) : Option (Fin 32) → Option (Fin 32)
  | none => last
  | some k => some k

/-- The Report Unit once a frame has opened, which raises NO_SLOT without a slot (R79). -/
def ReportUnit.opened (r : ReportUnit) (frame : Count) : Option (Fin 32) → ReportUnit
  | none => r.onLatch 50 (Latch.raise (.noSlot frame))
  | some _ => r

theorem opened_eq (s : State) (frame : Count) (slot : Option (Fin 32)) :
    (match slot with | none => raise 50 (.noSlot frame) s | some _ => s).report = s.report.opened frame slot := by
  cases slot <;> rfl

/-- A frame opens behind at most three others: no seal is forced. -/
theorem openFrame_room {b : Boundary} (h : s.table.openFrames.length < 4) :
    let slot := findFreeSlot s.livePlan.static.slots s.table
    openFrame b s = { s with
      table := { s.table with
        openFrames := s.table.openFrames
          ++ [{ newFrame b slot with rows := provisionalRows s.livePlan 0 (newFrame b slot) }]
        slots := slotsOpened s.table.slots slot
        lastAllocated := lastOpened s.table.lastAllocated slot }
      reg := { s.reg with correction := 0, next := some (nextBoundary s.livePlan 0 (newFrame b slot)) }
      report := s.report.opened b.frame slot } := by
  intro slot
  have hforce : forceSeal (setCorrection 0 s) = setCorrection 0 s := if_neg (Nat.not_le.mpr h)
  have hslot : findFreeSlot (setCorrection 0 s).livePlan.static.slots (setCorrection 0 s).table = slot := rfl
  unfold openFrame
  rw [hforce]
  unfold allocateSlot
  dsimp only
  rw [hslot]
  cases slot with
  | none => exact (recompute_newest rfl).trans (if_neg Bool.false_ne_true)
  | some k => exact (recompute_newest rfl).trans (if_neg Bool.false_ne_true)

/-- With a row bound that plan check 3 keeps, a pending correction of 0 is not clamped (R52). -/
theorem corrClamped_zero {p : Plan} {g : Frame} (h3 : check3 p = true) (hr : g.residue ≤ 65535)
    (hhi : ∀ h, g.hi = some h → (h + 1) * 65536 ≤ g.residue + p.static.repeatLen) : corrClamped p 0 g = 0 := by
  have hcheck : 16 * 65536 ≤ p.static.repeatLen ∧ p.static.repeatLen ≤ 65536 * p.static.frameRows := by
    simp only [check3, inRange, Bool.and_eq_true, decide_eq_true_eq] at h3
    unfold Config.fine at h3
    omega
  have hrow : ((match g.hi with | none => 1 | some h => (h : Int) + 1) * 65536) ≤ frameSpan p.static g.residue := by
    unfold frameSpan
    split
    next => omega
    next h hh => have := hhi h hh; omega
  have hlo : corrLo p g ≤ 0 := max_le (by omega) (Int.sub_nonpos_of_le hrow)
  have hup : 0 ≤ corrHi p g := by
    unfold corrHi frameSpan
    omega
  unfold corrClamped
  omega

/-- The rows of a frame that opened at a boundary and reads g, with a pending correction of 0 (R53, R55). -/
theorem rowsOnOpening {p : Plan} {b : Boundary} {g : Frame} (hnumber : g.number = b.frame) (hstart : g.start = b.start)
    (hresidue : g.residue = b.residue) (hrows : g.rows = provisionalRows p 0 g) :
    RowsOnOpening p b g (some (nextBoundary p 0 g)) := by
  refine ⟨hrows, rfl, fun h3 hr hhi => ?_⟩
  have hcorr : corrClamped p 0 g = 0 := corrClamped_zero h3 (hresidue ▸ hr) (by rw [hresidue]; exact hhi)
  have hsum : boundarySum p 0 g = ((b.residue + p.static.repeatLen : Nat) : Int) := by
    unfold boundarySum frameSpan
    rw [hcorr, hresidue]
    omega
  have hfloor : provisionalRows p 0 g = (b.residue + p.static.repeatLen) / 65536 := by
    unfold provisionalRows
    rw [hsum]
    omega
  refine ⟨hrows.trans hfloor, ?_⟩
  unfold nextBoundary
  rw [hfloor, hcorr, hsum, hnumber, hstart]
  congr 2

end

end Sys2Proof.Machine
end

section
/-! The line that sets the origin (R45 to R49, R53, R174), and a line start whose line is TAKING (R22, R33, R96). -/

namespace Sys2Proof.Machine

/-! ### A line start whose line is TAKING -/

section
variable {w : FabricWrite} {n : Lane} {s y : State} {frame : Count} {q : Nat} {place : Placement}

/-- The line as the burst of its line start leaves it. -/
theorem contextAfterBurst_lineStart (ht : TagWellFormed w n s) (hp : PartOfLine w n s) :
    contextAfterBurst ((windowData w n s).drop 16).length (.taking (lineOf w n s) frame q place)
      = .taking { lineOf w n s with expected := windowOffset w n s + (windowData w n s).length } frame q place := by
  have hlen := tagFault_length ht
  have hpart : (windowData w n s).length < 16 + (readTag (windowData w n s)).pix * s.livePlan.static.pixelBytes := hp
  have hrest : (lineOf w n s).lineEnd - (lineOf w n s).expected
      = (readTag (windowData w n s)).pix * s.livePlan.static.pixelBytes := by
    unfold lineOf
    dsimp only
    omega
  have hexpected : (lineOf w n s).expected + min ((windowData w n s).drop 16).length
      ((lineOf w n s).lineEnd - (lineOf w n s).expected) = windowOffset w n s + (windowData w n s).length := by
    rw [hrest, List.length_drop]
    unfold lineOf
    dsimp only
    omega
  rw [contextAfterBurst_taking, hexpected, if_neg]
  unfold lineOf
  dsimp only
  omega

/-- A well-formed line start that leaves its lane TAKING in a state `y`: the burst's bytes advance the line and derive its
writes, what is due is settled, and the Report Unit chooses (log 7). -/
theorem exec_taken (h : LineStarts w n s) (hno : NoInjection n s) (ht : TagWellFormed w n s) (hp : PartOfLine w n s)
    (hplan : y.livePlan = s.livePlan)
    (hlane : y.lanes[n] = { (lockOf w n s).lane with context := .taking (lineOf w n s) frame q place })
    (hl : lockAndPlace n (readTag (windowData w n s)) (lineOf w n s) (beforeTag n s) = y) :
    exec (.lineStart w) s = .next (present
      { settle { y with lanes := y.lanes.set n { (lockOf w n s).lane with
          context := .taking { lineOf w n s with expected := windowOffset w n s + (windowData w n s).length }
            frame q place } } with
        held := s.heldTaking w n frame place }) := by
  have hcontext : y.lanes[n].context = .taking (lineOf w n s) frame q place := by rw [hlane]
  have hr : landingBurst n w.addr.toNat (windowOffset w n s) w.tag w.data s
      = ({ y with lanes := y.lanes.set n { (lockOf w n s).lane with
            context := .taking { lineOf w n s with expected := windowOffset w n s + (windowData w n s).length }
              frame q place } },
          takingWrites s.livePlan.static n (lineOf w n s) frame place ((windowData w n s).drop 16)) := by
    rw [landingBurst_wellFormed h hno ht, hl]
    unfold burstInPlace setContext onLane
    dsimp only
    rw [hcontext, contextAfterBurst_lineStart ht hp, hlane, hplan]
    rfl
  exact (exec_landed h.1.1 hr).1

/-- A slot that was FREE and is FILLING leaves a quiet part nothing to settle, while the device is RUNNING. -/
theorem settle_filling {t : State} {slot : Option (Fin 32)} (hq : Quiet s) (hfree : ∀ k, slot = some k → s.table.slots[k] = .free)
    (hpatch : t.patch = s.patch) (hqueue : t.table.queue = s.table.queue)
    (hslots : t.table.slots = slotsOpened s.table.slots slot)
    (hdevice : t.capture.device = .running) : settle t = t := by
  refine settle_fixed (fun hidle => ?_) fun hdrain => ?_
  · have hnone := firstPatching_none_iff.mp (hq.1 (hpatch ▸ hidle))
    rw [firstPatching_none_iff, hqueue, hslots]
    intro e he
    cases slot with
    | none => exact hnone e he
    | some k =>
      unfold slotsOpened
      by_cases hk : k = e.slot
      · subst hk
        simp
      · have hk' : k.val ≠ e.slot.val := fun h => hk (Fin.ext h)
        rw [Fin.getElem_fin, Vector.getElem_set_ne _ _ hk']
        exact hnone e he
  · rw [hdevice] at hdrain
    exact absurd hdrain.1 (by decide)

end

/-! ### Setting the origin -/

section
variable {n : Lane} {s : State} {q residue rows : Nat} {b : Boundary} {slot : Option (Fin 32)} {time : Count}

/-- A frame that opened at a boundary with the line at relative position q delivered, and with `rows` rows. -/
def frameWithLine (p : StaticPlan) (n : Lane) (b : Boundary) (slot : Option (Fin 32)) (q : Nat) (time : Count) (rows : Nat) :
    Frame :=
  { newFrame b slot with
    rows := rows, hi := some (q / p.phases), cursors := (Vector.replicate 8 (.expects 0)).set n (.expects (q + 1))
    delivered := 1#8 <<< n.val, firstTime := some time, missing := q
    runs := if q = 0 then [] else [{ lane := n, first := 0, count := q }] }

/-- The first line in a frame that opens for it. -/
theorem lineCounted_newFrame {p : StaticPlan} {g : Frame}
    (h : LineCounted p n 0 q time { newFrame b slot with rows := rows } g) : g = frameWithLine p n b slot q time g.rows := by
  unfold LineCounted at h
  unfold frameWithLine
  refine h.trans ?_
  cases q <;> simp [newFrame]

/-- A frame opens for a line, which is placed in it; no other frame is open. -/
theorem setOrigin_eq {line : Line} (ho : s.table.openFrames = []) :
    let slot := findFreeSlot s.livePlan.static.slots s.table
    let origin := line.pos - BitVec.ofNat 32 q
    ∃ rows t, setOrigin n line q residue s = { s with
        table := { s.table with
          openFrames := [{ frameWithLine s.livePlan.static n (originBoundary origin residue) slot q line.time rows with
            markTaken := decide (s.reg.mode = .mark) }]
          slots := slotsOpened s.table.slots slot
          lastAllocated := lastOpened s.table.lastAllocated slot
          sealTimer := t }
        reg := { s.reg with
          origin := some origin, correction := 0
          next := some (nextBoundary s.livePlan 0
            (frameWithLine s.livePlan.static n (originBoundary origin residue) slot q line.time rows)) }
        report := { s.report.opened 0 slot with
          stateNotice := some { device := .running, cause := .origin, generation := s.plan.generation, origin := some origin }
          noticePresented := false }
        capture := { s.capture with device := .running } }
      ∧ rows = provisionalRows s.livePlan 0
          (frameWithLine s.livePlan.static n (originBoundary origin residue) slot q line.time rows) := by
  intro slot origin
  have hopen := openFrame_room (s := { s with reg := { s.reg with origin := some origin } })
    (b := originBoundary origin residue) (by show s.table.openFrames.length < 4; rw [ho]; decide)
  generalize hv : openFrame (originBoundary origin residue) { s with reg := { s.reg with origin := some origin } } = v
    at hopen
  generalize hu : handNotice .running .origin { v with capture := { v.capture with device := .running } } = u
  have hset : setOrigin n line q residue s = match (placeLine n 0 q line.time u).reg.mode with
      | .free => placeLine n 0 q line.time u
      | .mark => onFrame 0 (fun f => { f with markTaken := true }) (placeLine n 0 q line.time u) := by
    rw [← hu, ← hv]
    rfl
  rw [hopen] at hu
  have hlive : u.livePlan = s.livePlan := by rw [← hu]; rfl
  have hframes : u.table.openFrames = [] ++ [{ newFrame (originBoundary origin residue) slot with
      rows := provisionalRows s.livePlan 0 (newFrame (originBoundary origin residue) slot) }] := by
    rw [← hu]
    show s.table.openFrames ++ _ = _
    rw [ho]
    rfl
  have hcursor : (newFrame (originBoundary origin residue) slot).cursors[n] = .expects 0 := by
    simp [newFrame]
  obtain ⟨g, o', hcount, ⟨hrec, -⟩, -, hplace⟩ := placeLine_eq (q := q) line.time hframes hcursor rfl
  obtain ⟨hrows, hreg⟩ := hrec ⟨rfl, rfl, nofun⟩
  have hcorr : u.reg.correction = 0 := by rw [← hu]; rfl
  have hg := lineCounted_newFrame hcount
  rw [hlive] at hg hplace
  rw [hlive, hcorr] at hrows hreg
  generalize g.rows = rows at hg hrows
  subst hg
  refine ⟨rows, timerOnceSeen false s.livePlan.run o' s.table.sealTimer, ?_, ?_⟩
  · rw [hreg] at hplace
    replace hset := hset.trans (congrArg (fun t : State => match t.reg.mode with
      | .free => t
      | .mark => onFrame 0 (fun f => { f with markTaken := true }) t) hplace)
    rw [hset, ← hu]
    dsimp only [handNotice]
    cases s.reg.mode <;> rfl
  · exact hrows

/-! ### A candidate origin (R32, R45 to R49) -/

/-- The slot of the frame that carries a number first among the open frames. -/
theorem slotOf_eq {older younger : List Frame} {g : Frame} {number : Count}
    (ho : s.table.openFrames = older ++ g :: younger) (hne : ∀ f ∈ older, f.number ≠ number) (hg : g.number = number) :
    s.slotOf number = g.slot := by
  have hfind : s.frameOf number = some g := by
    unfold State.frameOf
    rw [ho, List.find?_append, List.find?_eq_none.mpr fun f hf => by simpa using hne f hf]
    simp [hg]
  unfold State.slotOf
  rw [hfind]

end

section
variable {w : FabricWrite} {n : Lane} {s : State} {q residue : Nat}

theorem afterLock_plan (w : FabricWrite) (n : Lane) (s : State) : (afterLock w n s).livePlan = s.livePlan := by
  unfold State.livePlan
  rw [(afterLock_same w n s).plan]

theorem afterLock_memStream (w : FabricWrite) (n : Lane) (s : State) : (afterLock w n s).memStream = s.memStream := by
  unfold afterLock raiseLock
  split <;> rfl

theorem lockAndPlace_armed (hf : NoLineInFlight n s) (ha : (lockOf w n s).accepted = true)
    (hd : s.capture.device = .armed) :
    lockAndPlace n (readTag (windowData w n s)) (lineOf w n s) (beforeTag n s)
      = armLine n (lineGiven w n s) (lineOf w n s) (afterLock w n s) := by
  rw [lockAndPlace_plain hf, ha, if_pos rfl]
  unfold handOn
  rw [(afterLock_same w n s).capture, hd]

theorem armLine_none {line : Line} {x : LineExtent}
    (h : candidate s.livePlan s.reg.mode n line.enc line.mark = none) :
    armLine n line x s = setContext n (.discarding x) s := by
  unfold armLine
  rw [h]

/-- A candidate that qualifies sets the origin and is TAKING; in FREE origin mode it is no mark. -/
theorem armLine_some {line : Line} {x : LineExtent} (ho : s.table.openFrames = [])
    (h : candidate s.livePlan s.reg.mode n line.enc line.mark = some (q, residue))
    (hmark : s.reg.mode = .free → line.mark = false ∨ s.livePlan.static.lanes[n].markSource = false) :
    armLine n line x s = takeLine n x 0 q (setOrigin n line q residue s) := by
  have hplan : (takeLine n x 0 q (setOrigin n line q residue s)).livePlan = s.livePlan :=
    (setOrigin_inner n line q residue s).livePlan
  have hmode : (takeLine n x 0 q (setOrigin n line q residue s)).reg.mode = s.reg.mode := by
    obtain ⟨rows, t, hset, -⟩ := setOrigin_eq (n := n) (q := q) (residue := residue) (line := line) ho
    rw [hset]
    rfl
  unfold armLine
  rw [h]
  dsimp only
  split
  next hm =>
    refine evaluateMark_of_no_mark _ _ ?_
    rw [hplan]
    exact hmark (hmode ▸ hm)
  next hm => rfl

/-- The state of a part whose establishing line is TAKING in frame 0, before the Report Unit chooses. -/
theorem exec_origin (h : LineStarts w n s) (hq : Quiet s) (hno : NoInjection n s) (hf : NoLineInFlight n s)
    (ht : TagWellFormed w n s) (ha : (lockOf w n s).accepted = true) (hd : s.capture.device = .armed)
    (ho : s.table.openFrames = []) (hpart : PartOfLine w n s)
    (hc : candidate s.livePlan s.reg.mode n (readTag (windowData w n s)).enc (readTag (windowData w n s)).mark
      = some (q, residue))
    (hmark : s.reg.mode = .free → (readTag (windowData w n s)).mark = false ∨ (s.entry n).markSource = false) :
    let slot := findFreeSlot s.livePlan.static.slots s.table
    let place := placementOf s.livePlan.static slot q
    exec (.lineStart w) s = .next (present { setOrigin n (lineGiven w n s) q residue (afterLock w n s) with
      lanes := s.lanesTaking w n 0 q place
      held := s.heldTaking w n 0 place }) := by
  intro slot place
  have hsame := afterLock_same w n s
  have hplan := afterLock_plan w n s
  obtain ⟨rows, timer, hset, -⟩ := setOrigin_eq (s := afterLock w n s) (n := n) (q := q) (residue := residue)
    (line := lineGiven w n s) (by rw [hsame.table, ho])
  have hslot : findFreeSlot (afterLock w n s).livePlan.static.slots (afterLock w n s).table = slot := by
    rw [hplan, hsame.table]
  rw [hslot] at hset
  generalize hv : setOrigin n (lineGiven w n s) q residue (afterLock w n s) = v at hset ⊢
  have htaken : lockAndPlace n (readTag (windowData w n s)) (lineOf w n s) (beforeTag n s)
      = takeLine n (lineOf w n s) 0 q v := by
    rw [lockAndPlace_armed hf ha hd, armLine_some (by rw [hsame.table, ho]) (by rw [hplan, hsame.reg]; exact hc)
      (by rw [hplan, hsame.reg]; exact hmark), hv]
  have hlive : v.livePlan = s.livePlan := by rw [← hplan, ← hv]; exact (setOrigin_inner _ _ _ _ _).livePlan
  have hlanes : v.lanes = s.lanes.set n (lockOf w n s).lane := by rw [hset]; exact afterLock_lane w n s
  have hframes := congrArg (fun t : State => t.table.openFrames) hset
  have hplace : placementOf v.livePlan.static (v.slotOf 0) q = place := by
    have hslot0 : v.slotOf 0 = slot := slotOf_eq (older := []) hframes nofun rfl
    rw [hlive, hslot0]
  have hlane : (takeLine n (lineOf w n s) 0 q v).lanes
      = s.lanes.set n { (lockOf w n s).lane with context := .taking (lineOf w n s) 0 q place } := by
    unfold takeLine setContext onLane
    rw [hplace, hlanes, set_set]
    simp only [Fin.getElem_fin, Vector.getElem_set_self]
  have hsettle : settle { takeLine n (lineOf w n s) 0 q v with lanes := s.lanesTaking w n 0 q place }
      = { takeLine n (lineOf w n s) 0 q v with lanes := s.lanesTaking w n 0 q place } := by
    refine settle_filling (slot := slot) hq (fun k hk => findFreeSlot_free hk) ?_ ?_ ?_ ?_
    · exact (congrArg State.patch hset).trans hsame.patch
    · exact (congrArg (fun t : State => t.table.queue) hset).trans (by rw [hsame.table])
    · exact (congrArg (fun t : State => t.table.slots) hset).trans (by rw [hsame.table])
    · exact congrArg (fun t : State => t.capture.device) hset
  rw [exec_taken (y := takeLine n (lineOf w n s) 0 q v) (frame := 0) (q := q) (place := place) h hno ht hpart hlive
    (by rw [hlane]; simp only [Fin.getElem_fin, Vector.getElem_set_self]) htaken, hlane, set_set]
  exact congrArg (fun t : State => Host.Outcome.next (present { t with held := s.heldTaking w n 0 place })) hsettle

/-- Whether a mark sets the origin, and where, in MARK origin mode (R47, R48). -/
theorem candidate_mark {p : Plan} {enc : Count} {mark : Bool} :
    candidate p .mark n enc mark =
      if mark = true ∧ p.static.lanes[n].markSource = true ∧ (markOrigin p.static).1 ≠ p.static.frameRows then
        some (originPhase p.static enc + (markOrigin p.static).1 * p.static.phases, (markOrigin p.static).2)
      else none := by
  unfold candidate
  simp only [Bool.and_eq_true, decide_eq_true_eq, and_assoc]

end

theorem present_queue (s : State) : (present s).table.queue = s.table.queue := by rw [present_table]
theorem present_lanes (s : State) : (present s).lanes = s.lanes := by rw [(present_chosen s).only]
theorem present_reg (s : State) : (present s).reg = s.reg := by rw [(present_chosen s).only]
theorem present_patch (s : State) : (present s).patch = s.patch := by rw [(present_chosen s).only]
theorem present_plan (s : State) : (present s).plan = s.plan := by rw [(present_chosen s).only]
theorem present_capture (s : State) : (present s).capture = s.capture := by rw [(present_chosen s).only]

/-- Settles O17: the origin by the candidate, frame 0 as `setOrigin_eq` opens it. -/
theorem freeOriginOpensFrameZero : Obligations.FreeOriginOpensFrameZero := by
  intro w n s h hq hno hf ht ha hd ho t p phase whole frac row residue slot opens partOfLine dropped
  have key (q residue : Nat) (marked : Bool)
      (hc : candidate s.livePlan s.reg.mode n t.enc t.mark = some (q, residue))
      (hmark : s.reg.mode = .free → t.mark = false ∨ (s.entry n).markSource = false)
      (hmarked : marked = decide (s.reg.mode = .mark)) (hpart : partOfLine) : opens q residue marked := by
    have hexec := exec_origin h hq hno hf ht ha hd ho hpart hc hmark
    obtain ⟨rows, timer, hset, hrows⟩ := setOrigin_eq (s := afterLock w n s) (n := n) (q := q) (residue := residue)
      (line := lineGiven w n s) (by rw [(afterLock_same w n s).table, ho])
    rw [hset] at hexec
    have hsame := afterLock_same w n s
    rw [afterLock_plan, hsame.table, hsame.reg, hsame.capture, hsame.plan, hsame.patch, ← hmarked] at hexec
    rw [afterLock_plan] at hrows
    let g : Frame := { frameWithLine p n (originBoundary (tagPosition w n s - BitVec.ofNat 32 q) residue) slot q t.time rows with
      markTaken := marked }
    have hopened (k : Option (Fin 32)) (hk : slot = k) : slotsOpened s.table.slots slot = slotsOpened s.table.slots k
        ∧ lastOpened s.table.lastAllocated slot = lastOpened s.table.lastAllocated k := by rw [hk]; exact ⟨rfl, rfl⟩
    refine ⟨_, g, nextBoundary s.livePlan 0 g, hexec, present_capture _, present_reg _, rowsOnOpening rfl rfl rfl hrows,
      congrArg FrameTable.openFrames (present_table _),
      rfl, rfl, rfl, rfl, rfl, rfl, rfl, rfl, rfl, rfl, rfl, rfl, rfl, rfl, rfl, rfl, fun k hk => ⟨?_, ?_⟩, fun hk => ⟨?_, ?_⟩,
      present_lanes _, (present_chosen _).stateNotice, present_plan _, present_patch _,
      (present_chosen _).path.memStream.trans (afterLock_memStream w n s), present_queue _⟩
    · exact (congrArg FrameTable.slots (present_table _)).trans (hopened _ hk).1
    · exact (congrArg FrameTable.lastAllocated (present_table _)).trans (hopened _ hk).2
    · exact (congrArg FrameTable.slots (present_table _)).trans (hopened _ hk).1
    · exact (congrArg FrameTable.lastAllocated (present_table _)).trans (hopened _ hk).2
  have horigin : markOrigin p = (row, residue) := by
    unfold markOrigin
    simp only [row, residue]
    split <;> rfl
  refine ⟨fun hm hno hpart => ?_, fun hm ht hsource hrow hpart => ?_, fun hm hnot => ?_⟩
  · exact key _ _ _ (by rw [hm]; rfl) (fun _ => hno) (by rw [hm]; rfl) hpart
  · refine key _ _ _ ?_ (fun hfree => absurd (hm.symm.trans hfree) (by decide)) (by rw [hm]; rfl) hpart
    rw [hm, candidate_mark, horigin, if_pos ⟨ht, hsource, hrow⟩]
    rfl
  · have hc : candidate s.livePlan s.reg.mode n t.enc t.mark = none := by
      rw [hm, candidate_mark, horigin, if_neg]
      rintro ⟨hmark, hsource, hrow⟩
      rcases hnot with h | h | h
      · exact Bool.false_ne_true (h.symm.trans hmark)
      · exact Bool.false_ne_true (h.symm.trans hsource)
      · exact hrow h
    refine raiseLock_cases (P := fun u => exec (.lineStart w) s = .next (present u)) ?_
    rw [← afterLock_setLanes]
    refine exec_discarded h hq hno ht (afterLock_same w n s) (afterLock_lane w n s)
      ((lockAndPlace_armed hf ha hd).trans (armLine_none ?_))
    rw [afterLock_plan, (afterLock_same w n s).reg]
    exact hc

end Sys2Proof.Machine
end

section
/-! A line of an accepted line start that is placed in a frame (R33, R59, R96): what the line start leaves, with the mark
evaluated before what is due is settled. -/

namespace Sys2Proof.Machine

/-! ### The mark evaluation and what a step settles do not meet -/

/-- A state with another port, other lanes, another patch context and other slots and queue: what the mark evaluation does not
read (R59). -/
def besideFrames (held : Option HeldRequest) (lanes : Vector LaneTracker 8) (patch : PatchContext)
    (queue : List QueueEntry) (slots : Vector SlotState 32) (s : State) : State :=
  { s with held := held, lanes := lanes, patch := patch, table := { s.table with queue := queue, slots := slots } }

/-- A state with other open frames, another registration and another Report Unit: what the take-up does not read (R129). -/
def framesOnly (frames : List Frame) (reg : Registration) (report : ReportUnit) (s : State) : State :=
  { s with table := { s.table with openFrames := frames }, reg := reg, report := report }

section
variable {held : Option HeldRequest} {lanes : Vector LaneTracker 8} {patch : PatchContext} {queue : List QueueEntry}
  {slots : Vector SlotState 32} {frames : List Frame} {reg : Registration} {report : ReportUnit}

theorem recompute_besideFrames (s : State) :
    recompute (besideFrames held lanes patch queue slots s) = besideFrames held lanes patch queue slots (recompute s) := by
  unfold recompute besideFrames
  dsimp only
  cases s.table.openFrames.getLast? with
  | none => rfl
  | some f => dsimp only; split <;> rfl

/-- The state of which a mark that is taken lets the provisional N be recomputed (R61). -/
def markedFrame (frame : Count) (e : Int) (s : State) : State :=
  framesOnly (s.table.openFrames.map fun fr => if fr.number = frame then { fr with markTaken := true } else fr)
    { s.reg with
      correction := limitStep s.livePlan.run.markMaxStep (Int.tdiv e (2 ^ s.livePlan.run.markGain))
      markLost := 0 } s.report s

theorem takeMark_eq (frame : Count) (e : Int) (s : State) : takeMark frame e s = recompute (markedFrame frame e s) := rfl

theorem evaluateMark_besideFrames (n : Lane) (mark : Bool) (frame : Count) (row : Nat) (s : State) :
    evaluateMark n mark frame row (besideFrames held lanes patch queue slots s)
      = besideFrames held lanes patch queue slots (evaluateMark n mark frame row s) := by
  have hframe : (besideFrames held lanes patch queue slots s).frameOf frame = s.frameOf frame := rfl
  have hlive : (besideFrames held lanes patch queue slots s).livePlan = s.livePlan := rfl
  have hdevice : (besideFrames held lanes patch queue slots s).capture = s.capture := rfl
  unfold evaluateMark
  rw [hframe, hlive, hdevice]
  cases s.frameOf frame with
  | none => rfl
  | some f =>
    dsimp only
    split
    · split
      · rfl
      · exact recompute_besideFrames (markedFrame frame _ s)
    · rfl

theorem recompute_framesOnly (s : State) : ∃ fs r, recompute s = framesOnly fs r s.report s := by
  unfold recompute
  split
  · exact ⟨s.table.openFrames, s.reg, rfl⟩
  · split
    · exact ⟨s.table.openFrames, s.reg, rfl⟩
    · exact ⟨_, _, rfl⟩

theorem evaluateMark_framesOnly (n : Lane) (mark : Bool) (frame : Count) (row : Nat) (s : State) :
    ∃ fs r p, evaluateMark n mark frame row s = framesOnly fs r p s := by
  have same : ∃ fs r p, s = framesOnly fs r p s := ⟨s.table.openFrames, s.reg, s.report, rfl⟩
  unfold evaluateMark
  split
  · exact same
  · split
    · dsimp only
      split
      · exact ⟨s.table.openFrames, s.reg, _, rfl⟩
      · rw [takeMark_eq]
        obtain ⟨fs, r, h⟩ := recompute_framesOnly (markedFrame frame (markError s.livePlan.static _ row) s)
        exact ⟨fs, r, _, h⟩
    · exact same

theorem evaluateMark_setLanes (n : Lane) (mark : Bool) (frame : Count) (row : Nat) (s : State) (v : Vector LaneTracker 8) :
    { evaluateMark n mark frame row s with lanes := v } = evaluateMark n mark frame row { s with lanes := v } := by
  have h := evaluateMark_besideFrames (held := s.held) (lanes := v) (patch := s.patch) (queue := s.table.queue)
    (slots := s.table.slots) n mark frame row s
  obtain ⟨fs, r, p, hmark⟩ := evaluateMark_framesOnly n mark frame row s
  rw [hmark] at h ⊢
  exact h.symm

theorem evaluateMark_setHeld (n : Lane) (mark : Bool) (frame : Count) (row : Nat) (s : State) (x : Option HeldRequest) :
    { evaluateMark n mark frame row s with held := x } = evaluateMark n mark frame row { s with held := x } := by
  have h := evaluateMark_besideFrames (held := x) (lanes := s.lanes) (patch := s.patch) (queue := s.table.queue)
    (slots := s.table.slots) n mark frame row s
  obtain ⟨fs, r, p, hmark⟩ := evaluateMark_framesOnly n mark frame row s
  rw [hmark] at h ⊢
  exact h.symm

theorem takeUpEach_framesOnly (fuel : Nat) (s : State) :
    takeUpEach fuel (framesOnly frames reg report s) = framesOnly frames reg report (takeUpEach fuel s) := by
  induction fuel generalizing s with
  | zero => rfl
  | succ fuel ih =>
    have hpatch : (framesOnly frames reg report s).patch = s.patch := rfl
    have hfirst : firstPatching (framesOnly frames reg report s).table = firstPatching s.table := rfl
    have hlive : (framesOnly frames reg report s).livePlan = s.livePlan := rfl
    unfold takeUpEach
    rw [hpatch, hfirst, hlive]
    cases s.patch with
    | active w => rfl
    | idle =>
      cases firstPatching s.table with
      | none => rfl
      | some e =>
        dsimp only
        split
        · rfl
        · exact ih (finishPatch e.slot s)

theorem takeUpEach_besideFrames (fuel : Nat) (s : State) :
    ∃ c q sl, takeUpEach fuel s = besideFrames s.held s.lanes c q sl s := by
  induction fuel generalizing s with
  | zero => exact ⟨s.patch, s.table.queue, s.table.slots, rfl⟩
  | succ fuel ih =>
    unfold takeUpEach
    split
    · exact ⟨s.patch, s.table.queue, s.table.slots, rfl⟩
    · split
      · exact ⟨s.patch, s.table.queue, s.table.slots, rfl⟩
      · split
        · exact ⟨_, s.table.queue, s.table.slots, rfl⟩
        · obtain ⟨c, q, sl, h⟩ := ih (finishPatch _ s)
          exact ⟨c, q, sl, h⟩

/-- The mark of a line may be evaluated after the take-up as well as before. -/
theorem takeUp_evaluateMark (n : Lane) (mark : Bool) (frame : Count) (row : Nat) (s : State) :
    takeUp (evaluateMark n mark frame row s) = evaluateMark n mark frame row (takeUp s) := by
  obtain ⟨c, q, sl, htake⟩ := takeUpEach_besideFrames s.table.queue.length s
  obtain ⟨fs, r, p, hmark⟩ := evaluateMark_framesOnly n mark frame row s
  have hleft : takeUp (evaluateMark n mark frame row s) = framesOnly fs r p (takeUpEach s.table.queue.length s) := by
    rw [hmark]
    exact takeUpEach_framesOnly s.table.queue.length s
  rw [hleft]
  unfold takeUp
  rw [htake, evaluateMark_besideFrames, hmark]
  rfl

/-- While the device is RUNNING, a step settles by the take-up alone. -/
theorem settle_running {s : State} (h : s.capture.device = .running) : settle s = takeUp s := by
  obtain ⟨c, q, sl, htake⟩ := takeUpEach_besideFrames s.table.queue.length s
  unfold settle drainTest
  refine if_neg ?_
  unfold takeUp
  rw [htake]
  show ¬(s.capture.device = _ ∧ _)
  rw [h]
  simp

end

/-! ### A placed line -/

section
variable {w : FabricWrite} {n : Lane} {s t y : State} {i : Nat} {frame : Count} {q : Nat} {place : Placement}

theorem runLine_placed {line : Line} {x : LineExtent} (h : attributeLine n line s = (.placed i frame q, t)) :
    runLine n line x s = evaluateMark n line.mark frame (q / t.livePlan.static.phases)
      (if i = 0 then takeLine n x frame q t else evalSealTest (takeLine n x frame q t)) := by
  unfold runLine
  rw [h]

/-- A line start of an accepted line that is placed: the state `y` before its mark, with the line's bytes dealt with and what
is due settled; then the mark, and the Report Unit's choice. -/
theorem exec_placed (h : AcceptedRunning w n s) (hp : PartOfLine w n s)
    (hattr : attributeLine n (lineGiven w n s) (afterLock w n s) = (.placed i frame q, t))
    (htplan : t.livePlan = s.livePlan)
    (hy : (if i = 0 then takeLine n (lineOf w n s) frame q t else evalSealTest (takeLine n (lineOf w n s) frame q t)) = y)
    (hplan : y.livePlan = s.livePlan) (hdevice : y.capture.device = .running)
    (hlane : y.lanes[n] = { (lockOf w n s).lane with context := .taking (lineOf w n s) frame q place }) :
    exec (.lineStart w) s = .next (present (evaluateMark n (readTag (windowData w n s)).mark frame
      (q / s.livePlan.static.phases)
      { takeUp { y with lanes := y.lanes.set n { (lockOf w n s).lane with
          context := .taking { lineOf w n s with expected := windowOffset w n s + (windowData w n s).length }
            frame q place } } with
        held := s.heldTaking w n frame place })) := by
  obtain ⟨hstart, hq, hno, hf, ht, ha, hd⟩ := h
  have hl := (lockAndPlace_running hf ha hd).trans (runLine_placed (x := lineOf w n s) hattr)
  rw [hy, htplan] at hl
  obtain ⟨fs, r, p, hmark⟩ := evaluateMark_framesOnly n (lineGiven w n s).mark frame (q / s.livePlan.static.phases) y
  have hfinal := exec_taken (place := place) (frame := frame) (q := q) hstart hno ht hp (by rw [hmark]; exact hplan)
    (by rw [hmark]; exact hlane) hl
  have hlanes : (evaluateMark n (lineGiven w n s).mark frame (q / s.livePlan.static.phases) y).lanes = y.lanes := by
    rw [hmark]
    rfl
  rw [hlanes, evaluateMark_setLanes, settle_running, takeUp_evaluateMark, evaluateMark_setHeld] at hfinal
  · exact hfinal
  · rw [← evaluateMark_setLanes, hmark]
    exact hdevice

/-! ### A placed line with no seal after it -/

/-- A lane other than `n` that an open frame awaits (R110), as the obligation on accepted lines spells it. -/
@[reducible] def OtherAwaited (n : Lane) (s : State) (o : Frame) : Prop :=
  ∃ m : Lane, m ≠ n ∧ s.livePlan.run.laneEnable.getLsbD m.val = true ∧ s.lanes[m].state = .locked
    ∧ o.passed.getLsbD m.val = false

/-- What an accepted line in RUNNING answers from the state x that attribution and the line's bytes leave: its mark is evaluated
there, if it is one, and the Report Unit chooses. -/
def LineAnswers (w : FabricWrite) (n : Lane) (s x : State) (frame : Count) (q : Nat) : Prop :=
  exec (.lineStart w) s = .next (present (evaluateMark n (readTag (windowData w n s)).mark frame
    (q / s.livePlan.static.phases) x))
  ∧ ((readTag (windowData w n s)).mark = false ∨ (s.entry n).markSource = false →
    exec (.lineStart w) s = .next (present x))

theorem lineAnswers_of_exec {x : State} (hplan : x.livePlan = s.livePlan)
    (h : exec (.lineStart w) s = .next (present (evaluateMark n (readTag (windowData w n s)).mark frame
      (q / s.livePlan.static.phases) x))) : LineAnswers w n s x frame q := by
  refine ⟨h, fun hno => ?_⟩
  rwa [evaluateMark_of_no_mark _ _ (by rw [hplan]; exact hno)] at h

/-- Taking a line changes its lane's context alone: the placement is by the slot of the line's frame (R96). -/
theorem takeLine_eq {older younger : List Frame} {g : Frame} {slot : Option (Fin 32)} (hplan : t.livePlan = s.livePlan)
    (hlanes : t.lanes = s.lanes.set n (lockOf w n s).lane)
    (ho : t.table.openFrames = older ++ g :: younger) (hne : ∀ f ∈ older, f.number ≠ frame) (hg : g.number = frame)
    (hslot : g.slot = slot) :
    takeLine n (lineOf w n s) frame q t = { t with lanes := s.lanes.set n { (lockOf w n s).lane with
      context := .taking (lineOf w n s) frame q (placementOf s.livePlan.static slot q) } } := by
  unfold takeLine setContext onLane
  rw [slotOf_eq ho hne hg, hslot, hplan, hlanes, set_set]
  simp only [Fin.getElem_fin, Vector.getElem_set_self]

/-- The state after attribution that the line start of a placed line leaves to settle: beside the frames, the registration and
the reports, nothing but the line's lane and the slot of a frame that has opened. -/
structure Attributed (w : FabricWrite) (n : Lane) (opened : Option (Fin 32)) (s t : State) : Prop where
  plan    : t.plan = s.plan
  patch   : t.patch = s.patch
  capture : t.capture = s.capture
  queue   : t.table.queue = s.table.queue
  slots   : t.table.slots = slotsOpened s.table.slots opened
  free    : ∀ k, opened = some k → s.table.slots[k] = .free
  lanes   : t.lanes = s.lanes.set n (lockOf w n s).lane

theorem Attributed.livePlan {opened : Option (Fin 32)} (h : Attributed w n opened s t) : t.livePlan = s.livePlan := by
  unfold State.livePlan
  rw [h.plan]

/-- A line start of an accepted line that is placed, when no seal follows. -/
theorem lineAnswers_placed {opened slot : Option (Fin 32)} {older younger : List Frame} {g : Frame}
    (h : AcceptedRunning w n s) (hp : PartOfLine w n s)
    (hattr : attributeLine n (lineGiven w n s) (afterLock w n s) = (.placed i frame q, t))
    (ht : Attributed w n opened s t) (ho : t.table.openFrames = older ++ g :: younger)
    (hne : ∀ f ∈ older, f.number ≠ frame) (hg : g.number = frame) (hslot : g.slot = slot)
    (htest : i = 0 ∨ sealTest { t with lanes := s.lanes.set n { (lockOf w n s).lane with
      context := .taking (lineOf w n s) frame q (placementOf s.livePlan.static slot q) } } = false) :
    LineAnswers w n s { t with
      lanes := s.lanesTaking w n frame q (placementOf s.livePlan.static slot q)
      held := s.heldTaking w n frame (placementOf s.livePlan.static slot q) } frame q := by
  have htake := takeLine_eq (q := q) ht.livePlan ht.lanes ho hne hg hslot
  have hy : (if i = 0 then takeLine n (lineOf w n s) frame q t else evalSealTest (takeLine n (lineOf w n s) frame q t))
      = takeLine n (lineOf w n s) frame q t := by
    split
    next => rfl
    next hi =>
      rw [htake]
      exact evalSealTest_of_not (htest.resolve_left hi)
  obtain ⟨hstart, hq, hno, hf, htag, ha, hd⟩ := h
  have hdevice : t.capture.device = .running := by rw [ht.capture]; exact hd
  refine lineAnswers_of_exec ht.livePlan ?_
  rw [exec_placed ⟨hstart, hq, hno, hf, htag, ha, hd⟩ hp hattr ht.livePlan hy (place := placementOf s.livePlan.static slot q)
    (by rw [htake]; exact ht.livePlan) (by rw [htake]; exact hdevice)
    (by rw [htake]; simp only [Fin.getElem_fin, Vector.getElem_set_self]), htake]
  have hsettle : takeUp { t with lanes := s.lanesTaking w n frame q (placementOf s.livePlan.static slot q) }
      = { t with lanes := s.lanesTaking w n frame q (placementOf s.livePlan.static slot q) } := by
    refine (settle_running ?_).symm.trans (settle_filling hq ht.free ?_ ?_ ?_ ?_)
    exacts [hdevice, ht.patch, ht.queue, ht.slots, hdevice]
  dsimp only
  rw [set_set]
  exact congrArg (fun v : State => Host.Outcome.next (present (evaluateMark n _ frame _ { v with held := _ }))) hsettle

end

end Sys2Proof.Machine
end

section
/-! Attribution of an accepted line in RUNNING to an open frame, or to the frame that opens for it (R69 to R72, R75, R80, R81),
while another lane keeps the oldest frame open. -/

namespace Sys2Proof.Machine

section
variable {w : FabricWrite} {n : Lane} {s u y : State} {f o : Frame} {b : Boundary} {c q : Nat} {older younger : List Frame}

/-- The lock rule leaves its lane and its latch, and nothing else. -/
theorem afterLock_eq (w : FabricWrite) (n : Lane) (s : State) :
    afterLock w n s = { s with lanes := s.lanes.set n (lockOf w n s).lane, report := (s.lockRaised w n).report } := by
  rw [lockRaised_eq_raiseLock]
  unfold afterLock raiseLock
  split <;> rfl

/-! ### Where a line lies (R69 to R71) -/

/-- The sum of the row counts of frames, in positions. -/
def extents (p : StaticPlan) (fs : List Frame) : Nat := (fs.map fun h => h.rows * p.phases).sum

theorem openExtent_eq (p : StaticPlan) (fs : List Frame) : openExtent p fs = extents p fs := rfl

theorem extents_nil (p : StaticPlan) : extents p [] = 0 := rfl

theorem extents_append (p : StaticPlan) (older : List Frame) (f : Frame) (younger : List Frame) :
    extents p (older ++ f :: younger) = extents p older + f.rows * p.phases + extents p younger := by
  simp [extents, Nat.add_assoc]

theorem locate_append {p : StaticPlan} {d : Nat} (hlow : extents p older ≤ d)
    (hhigh : d < extents p older + f.rows * p.phases) :
    locate p (older ++ f :: younger) d = some (older.length, d - extents p older) := by
  induction older generalizing d with
  | nil =>
    rw [List.nil_append, locate, if_pos (by simpa [extents, Frame.extent] using hhigh)]
    rfl
  | cons o older ih =>
    have hsum : extents p (o :: older) = o.extent p + extents p older := rfl
    rw [hsum] at hlow hhigh
    rw [List.cons_append, locate, if_neg (by omega), ih (by omega) (by omega), hsum, Nat.sub_sub]
    rfl

/-- A line that lies in an open frame is placed there, or is LATE, by its lane's cursor (R71). -/
theorem attributeLine_within {line : Line} (hm : u.capture.mode = .continuous) (hb : u.reg.next ≠ none)
    (ho : u.table.openFrames = older ++ f :: younger) (hhead : (older ++ f :: younger).head? = some o)
    (hlow : (extents u.livePlan.static older : Int) ≤ (line.pos - o.start).toInt)
    (hhigh : (line.pos - o.start).toInt < (extents u.livePlan.static older + f.rows * u.livePlan.static.phases : Nat)) :
    attributeLine n line u = placeInOpen n older.length
      ((line.pos - o.start).toInt.toNat - extents u.livePlan.static older) line.time u := by
  obtain ⟨b, hb⟩ := Option.ne_none_iff_exists'.mp hb
  have hbase : baseCount b u.table.openFrames = o.start := by
    obtain ⟨rest, hrest⟩ := List.head?_eq_some_iff.mp hhead
    rw [ho, hrest]
    rfl
  have hextent : openExtent u.livePlan.static u.table.openFrames
      = extents u.livePlan.static older + f.rows * u.livePlan.static.phases + extents u.livePlan.static younger := by
    rw [ho, openExtent_eq, extents_append]
  unfold attributeLine
  rw [hm]
  dsimp only
  unfold attributeContinuous
  rw [hb]
  dsimp only
  rw [hbase, hextent]
  generalize (line.pos - o.start).toInt = d at hlow hhigh ⊢
  rw [if_neg (by omega), if_pos (by omega), ho, locate_append (by omega) (by omega)]

/-- A line that lies in the next frame opens it (R72). -/
theorem attributeLine_next {line : Line} (hm : u.capture.mode = .continuous) (hb : u.reg.next = some b)
    (hlow : (extents u.livePlan.static u.table.openFrames : Int)
      ≤ (line.pos - baseCount b u.table.openFrames).toInt)
    (hhigh : (line.pos - baseCount b u.table.openFrames).toInt < (extents u.livePlan.static u.table.openFrames
      + (b.residue + u.livePlan.static.repeatLen) / 65536 * u.livePlan.static.phases : Nat)) :
    attributeLine n line u = openAndPlace n b
      ((line.pos - baseCount b u.table.openFrames).toInt.toNat - extents u.livePlan.static u.table.openFrames)
      line.time u := by
  unfold attributeLine
  rw [hm]
  dsimp only
  unfold attributeContinuous
  rw [hb]
  dsimp only
  rw [openExtent_eq]
  generalize (line.pos - baseCount b u.table.openFrames).toInt = d at hlow hhigh ⊢
  rw [if_neg (by omega), if_neg (by omega), if_pos (by unfold unopenedRows; exact_mod_cast hhigh)]

theorem placeInOpen_placed {i : Nat} {time : Count} (hi : u.table.openFrames[i]? = some f)
    (hc : f.cursors[n] = .expects c) (hle : c ≤ q) :
    placeInOpen n i q time u = (.placed i f.number q, placeLine n i q time u) := by
  unfold placeInOpen
  rw [hi]
  dsimp only
  rw [hc]
  exact if_neg (Nat.not_lt.mpr hle)

/-- A line at or past its lane's cursor in the only open frame, in either mode. -/
theorem attributeLine_only {line : Line} (hb : u.capture.mode = .continuous → u.reg.next ≠ none)
    (ho : u.table.openFrames = [f]) (hc : f.cursors[n] = .expects c) (hlow : (c : Int) ≤ (line.pos - f.start).toInt)
    (hhigh : (line.pos - f.start).toInt < ((f.rows * u.livePlan.static.phases : Nat) : Int)) :
    attributeLine n line u = (.placed 0 f.number (line.pos - f.start).toInt.toNat,
      placeLine n 0 (line.pos - f.start).toInt.toNat line.time u) := by
  have hplace := placeInOpen_placed (i := 0) (q := (line.pos - f.start).toInt.toNat) (time := line.time)
    (show u.table.openFrames[0]? = some f by rw [ho]; rfl) hc (by omega)
  cases hm : u.capture.mode with
  | continuous =>
    rw [attributeLine_within (older := []) (younger := []) hm (hb hm) ho rfl (by rw [extents_nil]; omega)
      (by rwa [extents_nil, Nat.zero_add])]
    exact hplace
  | single =>
    have hbeyond : beyondSingle u.livePlan.static line f = false :=
      decide_eq_false (Int.not_le.mpr hhigh)
    unfold attributeLine
    rw [hm]
    dsimp only
    unfold attributeSingle
    rw [ho]
    dsimp only
    rw [if_neg (by omega), hbeyond, if_neg Bool.false_ne_true]
    exact hplace

/-! ### The state after the line is placed in an open frame -/

theorem lineCounted_keeps {p : StaticPlan} {time : Count} {g : Frame} (h : LineCounted p n c q time f g) :
    g.number = f.number ∧ g.slot = f.slot ∧ g.endSeen = f.endSeen ∧ g.passed = f.passed := by
  unfold LineCounted at h
  rw [h]
  exact ⟨rfl, rfl, rfl, rfl⟩

/-- The state once a line is placed in a frame that was open: the frames, the seal timer and the registration, beside what the
lock rule left. -/
def placedState (w : FabricWrite) (n : Lane) (s : State) (frames : List Frame) (timer : SealTimer) (reg : Registration) :
    State :=
  { s with
    lanes := s.lanes.set n (lockOf w n s).lane
    report := (s.lockRaised w n).report
    reg := reg
    table := { s.table with openFrames := frames, sealTimer := timer } }

theorem attributed_placedState (w : FabricWrite) (n : Lane) (s : State) (frames : List Frame) (timer : SealTimer)
    (reg : Registration) : Attributed w n none s (placedState w n s frames timer reg) :=
  ⟨rfl, rfl, rfl, rfl, rfl, nofun, rfl⟩

theorem placeLine_afterLock (w : FabricWrite) (time : Count) (ho : s.table.openFrames = older ++ f :: younger)
    (hc : f.cursors[n] = .expects c) (hhead : (older ++ f :: younger).head? = some o) :
    let p := s.livePlan.static
    ∃ g o' r, LineCounted p n c q time f g
      ∧ RowsFollow (younger = []) (q / p.phases) f g s { s with reg := r }
      ∧ (older.map (Frame.passBy p n) ++ g :: younger).head? = some o'
      ∧ placeLine n older.length q time (afterLock w n s) = placedState w n s
          (older.map (Frame.passBy p n) ++ g :: younger)
          (timerOnceSeen o.endSeen s.livePlan.run o' s.table.sealTimer) r := by
  intro p
  rw [afterLock_eq]
  obtain ⟨g, o', hcount, hrows, ho', ht⟩ := placeLine_eq (q := q)
    (s := { s with lanes := s.lanes.set n (lockOf w n s).lane, report := (s.lockRaised w n).report }) time ho hc hhead
  exact ⟨g, o', _, hcount, hrows, ho', ht⟩

end

/-- Part 1 of O15: the line lies in the only open frame, at or past its lane's cursor. -/
theorem acceptedLine_only {w : FabricWrite} {n : Lane} {s : State} {f : Frame} {c : Nat} (h : AcceptedRunning w n s)
    (hp : PartOfLine w n s) (hb : s.capture.mode = .continuous → s.reg.next ≠ none) (ho : s.table.openFrames = [f])
    (hc : f.cursors[n] = .expects c) :
    let p := s.livePlan.static
    let d := (tagPosition w n s - f.start).toInt
    let q := d.toNat
    let place := placementOf p f.slot q
    (c : Int) ≤ d → d < ((f.rows * p.phases : Nat) : Int) →
    ∃ (x : State) (g : Frame), LineAnswers w n s x f.number q
      ∧ x = { s with
          lanes := s.lanesTaking w n f.number q place
          table := { s.table with openFrames := [g] }
          reg := x.reg
          report := (s.lockRaised w n).report
          held := s.heldTaking w n f.number place }
      ∧ LineCounted p n c q (readTag (windowData w n s)).time f g ∧ RowsFollow True (q / p.phases) f g s x := by
  intro p d q place hlow hhigh
  have hattr := attributeLine_only (n := n) (u := afterLock w n s) (f := f) (c := c) (line := lineGiven w n s)
    (by rw [afterLock_eq]; exact hb) (by rw [afterLock_eq]; exact ho) hc hlow (by rw [afterLock_eq]; exact hhigh)
  obtain ⟨g, o', r, hcount, hrows, ho', ht⟩ := placeLine_afterLock (older := []) (younger := []) (q := q) w
    (lineGiven w n s).time ho hc rfl
  obtain rfl : g = o' := Option.some.inj ho'
  obtain ⟨hnumber, hslot, hseen, -⟩ := lineCounted_keeps hcount
  rw [← hseen, timerOnceSeen_same] at ht
  have hlines := lineAnswers_placed (slot := f.slot) (older := []) (younger := []) h hp (hattr.trans (congrArg _ ht))
    (attributed_placedState ..) rfl nofun hnumber hslot (.inl rfl)
  rw [eq_self] at hrows
  exact ⟨_, g, hlines, rfl, hcount, hrows⟩

/-! ### Another lane keeps the oldest frame open (R110) -/

theorem getLsbD_setLaneBit {mask : Byte} {n m : Lane} (h : m ≠ n) :
    (mask ||| 1#8 <<< n.val).getLsbD m.val = mask.getLsbD m.val := by
  have hm := m.isLt
  have hne : m.val ≠ n.val := fun e => h (Fin.ext e)
  rw [BitVec.getLsbD_or, BitVec.getLsbD_shiftLeft, BitVec.getLsbD_one]
  have hbit : (decide (m.val < 8) && !decide (m.val < n.val) && (decide (0 < 8) && decide (m.val - n.val = 0))) = false := by
    simp
    omega
  rw [hbit, Bool.or_false]

/-- A frame that a lane has been moved past is still awaited by every other lane that awaited it. -/
theorem awaited_passedBy {p : StaticPlan} {n : Lane} {s y : State} {l : LaneTracker} {o g : Frame}
    (hpass : PassedBy p n o g) (hplan : y.livePlan = s.livePlan) (hlanes : y.lanes = s.lanes.set n l)
    (h : Awaited (some n) s o) : Awaited none y g := by
  obtain ⟨hclosed, hopen⟩ := hpass
  have hkept : g.fixed = o.fixed ∧ ∀ m : Lane, m ≠ n → g.passed.getLsbD m.val = o.passed.getLsbD m.val := by
    cases hc : o.cursors[n] with
    | closed =>
      rw [hclosed hc]
      exact ⟨rfl, fun _ _ => rfl⟩
    | expects c =>
      rw [hopen c hc]
      exact ⟨rfl, fun m hm => getLsbD_setLaneBit hm⟩
  obtain ⟨hfixed, hpassed⟩ := hkept
  rcases h with hf | ⟨m, hne, hen, hlocked, hbit⟩
  · exact .inl (hfixed.trans hf)
  · have hm : m ≠ n := fun e => hne (congrArg some e.symm)
    have hm' : n.val ≠ m.val := fun e => hm (Fin.ext e.symm)
    refine .inr ⟨m, nofun, by rw [hplan]; exact hen, ?_, (hpassed m hm).trans hbit⟩
    rw [hlanes, Fin.getElem_fin, Vector.getElem_set_ne _ _ hm']
    exact hlocked

theorem passBy_number (p : StaticPlan) (n : Lane) (f : Frame) : (f.passBy p n).number = f.number := by
  obtain ⟨hclosed, hopen⟩ := passedBy_passBy p n f
  cases hc : f.cursors[n] with
  | closed => rw [hclosed hc]
  | expects c => rw [hopen c hc]

/-- Attribution of a line that lies in one of several open frames, at or past its lane's cursor (R71, R80, R81). -/
theorem attributeLine_later {w : FabricWrite} {n : Lane} {s : State} {o f : Frame} {mid younger : List Frame} {c q : Nat}
    (hm : s.capture.mode = .continuous) (hb : s.reg.next ≠ none) (ho : s.table.openFrames = o :: mid ++ f :: younger)
    (hc : f.cursors[n] = .expects c) (hlow : ((extents s.livePlan.static (o :: mid) + c : Nat) : Int)
      ≤ (tagPosition w n s - o.start).toInt)
    (hhigh : (tagPosition w n s - o.start).toInt
      < ((extents s.livePlan.static (o :: mid) + f.rows * s.livePlan.static.phases : Nat) : Int))
    (hq : q = (tagPosition w n s - o.start).toInt.toNat - extents s.livePlan.static (o :: mid)) :
    let p := s.livePlan.static
    ∃ g r, LineCounted p n c q (readTag (windowData w n s)).time f g
      ∧ RowsFollow (younger = []) (q / p.phases) f g s { s with reg := r }
      ∧ attributeLine n (lineGiven w n s) (afterLock w n s) = (.placed (mid.length + 1) f.number q,
          placedState w n s ((o :: mid).map (Frame.passBy p n) ++ g :: younger)
            (timerOnceSeen o.endSeen s.livePlan.run (o.passBy p n) s.table.sealTimer) r) := by
  intro p
  have hattr := attributeLine_within (n := n) (u := afterLock w n s) (older := o :: mid) (f := f) (younger := younger)
    (o := o) (line := lineGiven w n s) (by rw [afterLock_eq]; exact hm) (by rw [afterLock_eq]; exact hb)
    (by rw [afterLock_eq]; exact ho) rfl
    (by rw [afterLock_plan]; exact Int.le_trans (Int.ofNat_le.mpr (Nat.le_add_right _ c)) hlow)
    (by rw [afterLock_plan]; exact hhigh)
  rw [afterLock_plan, show (lineGiven w n s).pos = tagPosition w n s from rfl, ← hq] at hattr
  have hplace := placeInOpen_placed (n := n) (u := afterLock w n s) (i := (o :: mid).length) (f := f) (c := c) (q := q)
    (time := (lineGiven w n s).time) (by rw [afterLock_eq]; show s.table.openFrames[_]? = _; rw [ho]; simp) hc (by omega)
  obtain ⟨g, o', r, hcount, hrows, ho', ht⟩ := placeLine_afterLock (q := q) w (lineGiven w n s).time ho hc rfl
  obtain rfl : o.passBy p n = o' := Option.some.inj ho'
  exact ⟨g, r, hcount, hrows, hattr.trans (hplace.trans (congrArg _ ht))⟩

/-- Part 2 of O15: the line lies in one of several open frames, and another lane keeps the oldest open. -/
theorem acceptedLine_later {w : FabricWrite} {n : Lane} {s : State} {o f : Frame} {mid younger : List Frame} {c : Nat}
    (h : AcceptedRunning w n s) (hp : PartOfLine w n s) (hm : s.capture.mode = .continuous) (hb : s.reg.next ≠ none) :
    let older := o :: mid
    s.table.openFrames = older ++ f :: younger → f.cursors[n] = .expects c → (∀ h ∈ older, h.number ≠ f.number) →
    Awaited (some n) s o →
    let p := s.livePlan.static
    let extent : Nat := (older.map fun h => h.rows * p.phases).sum
    let d := (tagPosition w n s - o.start).toInt
    let q := d.toNat - extent
    let place := placementOf p f.slot q
    ((extent + c : Nat) : Int) ≤ d → d < ((extent + f.rows * p.phases : Nat) : Int) →
    ∃ (x : State) (passed : List Frame) (o' g : Frame), LineAnswers w n s x f.number q
      ∧ x = { s with
          lanes := s.lanesTaking w n f.number q place
          table := { s.table with
            openFrames := passed ++ g :: younger
            sealTimer := timerOnceSeen o.endSeen s.livePlan.run o' s.table.sealTimer }
          reg := x.reg
          report := (s.lockRaised w n).report
          held := s.heldTaking w n f.number place }
      ∧ passed.length = older.length ∧ passed.head? = some o'
      ∧ (∀ (i : Nat) (h : Frame), older[i]? = some h → ∃ h', passed[i]? = some h' ∧ PassedBy p n h h')
      ∧ LineCounted p n c q (readTag (windowData w n s)).time f g ∧ RowsFollow (younger = []) (q / p.phases) f g s x := by
  intro older ho hc hne hawaited p extent d q place hlow hhigh
  obtain ⟨g, r, hcount, hrows, hattr⟩ := attributeLine_later (w := w) hm hb ho hc hlow hhigh rfl
  obtain ⟨hnumber, hslot, -, -⟩ := lineCounted_keeps hcount
  have hpassed : ∀ h ∈ older.map (Frame.passBy p n), h.number ≠ f.number := by
    intro h' hmem
    obtain ⟨h, hold, rfl⟩ := List.mem_map.mp hmem
    exact fun e => hne h hold ((passBy_number p n h).symm.trans e)
  have hlines := lineAnswers_placed (slot := f.slot) h hp hattr (attributed_placedState ..) rfl hpassed hnumber hslot
    (.inr (sealTest_awaited rfl (awaited_passedBy (s := s) (passedBy_passBy p n o) rfl rfl hawaited)))
  refine ⟨_, older.map (Frame.passBy p n), _, g, hlines, rfl, List.length_map _, rfl, fun i h hi => ?_, hcount, hrows⟩
  exact ⟨_, by rw [List.getElem?_map, hi]; rfl, passedBy_passBy p n h⟩

/-! ### The next frame opens for the line (R55 to R57, R72, R77) -/

/-- The frames once the newest's extent is fixed (R57). -/
def fixedNewest (fs : List Frame) : List Frame := onNewest (fun f => { f with fixed := true }) fs

theorem fixedNewest_length (fs : List Frame) : (fixedNewest fs).length = fs.length := onNewest_length _ _

theorem fixedNewest_getElem? {fs : List Frame} {i : Nat} {h : Frame} (hi : fs[i]? = some h) :
    (fixedNewest fs)[i]? = some { h with fixed := h.fixed || decide (i + 1 = fs.length) } := by
  rcases List.eq_nil_or_concat fs with rfl | ⟨older, a, rfl⟩
  · cases hi
  · have hlt : i < older.length + 1 := by
      have := (List.getElem?_eq_some_iff.mp hi).1
      simpa using this
    unfold fixedNewest
    rw [List.concat_eq_append, onNewest_append, List.length_append, List.length_singleton]
    rw [List.concat_eq_append] at hi
    rcases Nat.lt_or_eq_of_le (Nat.le_of_lt_succ hlt) with hlt | rfl
    · rw [List.getElem?_append_left hlt] at hi ⊢
      rw [hi, decide_eq_false (by omega), Bool.or_false]
    · rw [List.getElem?_append_right (Nat.le_refl _), Nat.sub_self] at hi ⊢
      cases hi
      simp

theorem fixNewest_newest {s : State} {older : List Frame} {a : Frame} (ho : s.table.openFrames = older ++ [a]) :
    fixNewest s = { s with
      table := { s.table with openFrames := older ++ [{ a with fixed := true }] }
      reg := if a.fixed then s.reg
        else { s.reg with next := s.reg.next.map fun b => { b with fixed := true }, correction := 0 } } := by
  unfold fixNewest
  rw [ho, List.getLast?_append, onNewest_append]
  dsimp only [List.getLast?_singleton, Option.some_or]
  cases hf : a.fixed with
  | false => rfl
  | true =>
    rw [if_pos rfl, if_pos rfl]
    have hsame : { a with fixed := true } = a := by rw [← hf]
    rw [hsame, ← ho]

theorem fixedNewest_cons (a : Frame) (rest : List Frame) :
    ∃ fixed tail, fixedNewest (a :: rest) = { a with fixed := fixed } :: tail := by
  cases rest with
  | nil => exact ⟨true, [], rfl⟩
  | cons b rest => exact ⟨a.fixed, _, rfl⟩

theorem fixedNewest_number {fs : List Frame} {h : Frame} (hmem : h ∈ fixedNewest fs) :
    ∃ a ∈ fs, a.number = h.number := by
  rcases List.eq_nil_or_concat fs with rfl | ⟨older, a, rfl⟩
  · cases hmem
  · rw [List.concat_eq_append] at hmem ⊢
    unfold fixedNewest at hmem
    rw [onNewest_append, List.mem_append, List.mem_singleton] at hmem
    rcases hmem with hmem | rfl
    · exact ⟨h, List.mem_append_left _ hmem, rfl⟩
    · exact ⟨a, List.mem_append_right _ (List.mem_singleton.mpr rfl), rfl⟩

/-- Fixing the newest frame fixes its row count, and touches the next boundary and the pending correction (R57). -/
theorem fixNewest_eq (s : State) : ∃ next c, fixNewest s = { s with
    table := { s.table with openFrames := fixedNewest s.table.openFrames }
    reg := { s.reg with next := next, correction := c } } := by
  rcases List.eq_nil_or_concat s.table.openFrames with ho | ⟨older, a, ho⟩
  · refine ⟨s.reg.next, s.reg.correction, ?_⟩
    have hsame : fixedNewest s.table.openFrames = s.table.openFrames := by rw [ho]; rfl
    have hnone : fixNewest s = s := by
      unfold fixNewest
      rw [ho]
      rfl
    rw [hnone, hsame]
  · rw [List.concat_eq_append] at ho
    rw [fixNewest_newest ho, ho]
    unfold fixedNewest
    rw [onNewest_append]
    cases a.fixed with
    | false => exact ⟨_, _, rfl⟩
    | true => exact ⟨_, _, rfl⟩

/-- The state once a line is placed in the frame that has opened for it: the frames, the seal timer, the next boundary and the
frame's slot, beside what the lock rule left. -/
def openedState (w : FabricWrite) (n : Lane) (s : State) (frames : List Frame) (timer : SealTimer) (next : Option Boundary)
    (number : Count) (slot : Option (Fin 32)) : State :=
  { s with
    lanes := s.lanes.set n (lockOf w n s).lane
    report := (s.lockRaised w n).report.opened number slot
    reg := { s.reg with correction := 0, next := next }
    table := { s.table with
      openFrames := frames, sealTimer := timer
      slots := slotsOpened s.table.slots slot
      lastAllocated := lastOpened s.table.lastAllocated slot } }

theorem openedState_eq (w : FabricWrite) (n : Lane) (s : State) (frames : List Frame) (timer : SealTimer)
    (next : Option Boundary) (number : Count) (slot : Option (Fin 32)) (lanes : Vector LaneTracker 8)
    (held : Option HeldRequest) :
    ({ openedState w n s frames timer next number slot with lanes := lanes, held := held } : State) = { s with
      lanes := lanes
      table := { s.table with
        openFrames := frames
        slots := match slot with | none => s.table.slots | some k => s.table.slots.set k .filling
        lastAllocated := match slot with | none => s.table.lastAllocated | some k => some k
        sealTimer := timer }
      reg := { s.reg with correction := 0, next := next }
      report := (match slot with | none => raise 50 (.noSlot number) (s.lockRaised w n) | some _ => s.lockRaised w n).report
      held := held } := by
  cases slot <;> rfl

theorem attributed_openedState (w : FabricWrite) (n : Lane) (s : State) (frames : List Frame) (timer : SealTimer)
    (next : Option Boundary) (number : Count) :
    Attributed w n (findFreeSlot s.livePlan.static.slots s.table) s (openedState w n s frames timer next number
      (findFreeSlot s.livePlan.static.slots s.table)) :=
  ⟨rfl, rfl, rfl, rfl, rfl, fun _ hk => findFreeSlot_free hk, rfl⟩

/-- A line opens the next frame and is placed in it, behind at most three frames whose extents are then fixed. -/
theorem openAndPlace_eq {w : FabricWrite} {n : Lane} {s : State} {b : Boundary} {q : Nat} {time : Count}
    (hroom : s.table.openFrames.length < 4) :
    let p := s.livePlan.static
    let slot := findFreeSlot p.slots s.table
    ∃ rows o o', let g := frameWithLine p n b slot q time rows
      let frames := (fixedNewest s.table.openFrames).map (Frame.passBy p n) ++ [g]
      g.rows = provisionalRows s.livePlan 0 g
      ∧ (fixedNewest s.table.openFrames ++ [{ newFrame b slot with rows := provisionalRows s.livePlan 0 (newFrame b slot) }]).head? = some o
      ∧ frames.head? = some o'
      ∧ openAndPlace n b q time (afterLock w n s) = (.placed s.table.openFrames.length b.frame q,
          openedState w n s frames (timerOnceSeen o.endSeen s.livePlan.run o' s.table.sealTimer)
            (some (nextBoundary s.livePlan 0 g)) b.frame slot) := by
  intro p slot
  obtain ⟨next, c, hfix⟩ := fixNewest_eq (afterLock w n s)
  rw [afterLock_eq] at hfix ⊢
  have hopen := openFrame_room (s := fixNewest _) (b := b) (by rw [hfix]; exact (fixedNewest_length _).trans_lt hroom)
  rw [hfix] at hopen
  unfold openAndPlace
  rw [hfix]
  generalize openFrame b _ = v at hopen ⊢
  have hframes : v.table.openFrames = fixedNewest s.table.openFrames
      ++ [{ newFrame b slot with rows := provisionalRows s.livePlan 0 (newFrame b slot) }] := by
    rw [hopen]
    rfl
  have hlive : v.livePlan = s.livePlan := by rw [hopen]; rfl
  have hindex : v.table.openFrames.length - 1 = (fixedNewest s.table.openFrames).length := by
    rw [hframes, List.length_append]
    rfl
  obtain ⟨o, hhead⟩ : ∃ o, (fixedNewest s.table.openFrames
      ++ [{ newFrame b slot with rows := provisionalRows s.livePlan 0 (newFrame b slot) }]).head? = some o := by
    cases fixedNewest s.table.openFrames with
    | nil => exact ⟨_, rfl⟩
    | cons a as => exact ⟨_, rfl⟩
  have hcursor : (newFrame b slot).cursors[n] = .expects 0 := by simp [newFrame]
  obtain ⟨g, o', hcount, ⟨hrec, -⟩, ho', hplace⟩ := placeLine_eq (q := q) time hframes hcursor hhead
  obtain ⟨hrows, hreg⟩ := hrec ⟨rfl, rfl, nofun⟩
  have hcorr : v.reg.correction = 0 := by rw [hopen]
  have hg := lineCounted_newFrame hcount
  rw [hlive] at hg hplace ho'
  rw [hlive, hcorr] at hrows hreg
  rw [hreg] at hplace
  generalize g.rows = rows at hg hrows
  subst hg
  refine ⟨rows, o, o', hrows, hhead, ho', ?_⟩
  dsimp only
  rw [hindex, hplace, fixedNewest_length, hopen]
  rfl

/-- Part 3 of O15: the line lies in the next frame, which opens for it, and another lane keeps the oldest frame open. -/
theorem acceptedLine_next {w : FabricWrite} {n : Lane} {s : State} {b : Boundary} (h : AcceptedRunning w n s)
    (hp : PartOfLine w n s) (hm : s.capture.mode = .continuous) (hb : s.reg.next = some b) :
    let fs := s.table.openFrames
    fs.length < 4 → (∀ h ∈ fs, h.number ≠ b.frame) →
    (∀ o rest, fs = o :: rest → OtherAwaited n s o) →
    let p := s.livePlan.static
    let base := match fs with | [] => b.start | o :: _ => o.start
    let extent : Nat := (fs.map fun h => h.rows * p.phases).sum
    let next : Nat := (b.residue + p.repeatLen) / 65536 * p.phases
    let d := (tagPosition w n s - base).toInt
    let q := d.toNat - extent
    let slot := findFreeSlot p.slots s.table
    let place := placementOf p slot q
    (extent : Int) ≤ d → d < ((extent + next : Nat) : Int) →
    ∃ (x : State) (passed : List Frame) (g : Frame), LineAnswers w n s x b.frame q
      ∧ x = { s with
          lanes := s.lanesTaking w n b.frame q place
          table := { s.table with
            openFrames := passed ++ [g]
            slots := match slot with | none => s.table.slots | some k => s.table.slots.set k .filling
            lastAllocated := match slot with | none => s.table.lastAllocated | some k => some k
            sealTimer := x.table.sealTimer }
          reg := { s.reg with correction := 0, next := x.reg.next }
          report := (match slot with
            | none => raise 50 (.noSlot b.frame) (s.lockRaised w n)
            | some _ => s.lockRaised w n).report
          held := s.heldTaking w n b.frame place }
      ∧ passed.length = fs.length
      ∧ (∀ (i : Nat) (h : Frame), fs[i]? = some h → ∃ h', passed[i]? = some h'
          ∧ PassedBy p n { h with fixed := h.fixed || decide (i + 1 = fs.length) } h')
      ∧ g = frameWithLine p n b slot q (readTag (windowData w n s)).time g.rows
      ∧ RowsOnOpening s.livePlan b g x.reg.next
      ∧ (fs = [] → x.table.sealTimer = s.table.sealTimer)
      ∧ ∀ o o', fs.head? = some o → passed.head? = some o' →
          x.table.sealTimer = timerOnceSeen o.endSeen s.livePlan.run o' s.table.sealTimer := by
  intro fs hroom hne hawaited p base extent next d q slot place hlow hhigh
  have hbase : baseCount b s.table.openFrames = base := by
    have heach (l : List Frame) : baseCount b l = match l with | [] => b.start | o :: _ => o.start := by cases l <;> rfl
    exact heach _
  obtain ⟨rows, o, o', hrows, ho, ho', hopen⟩ := openAndPlace_eq (w := w) (n := n) (b := b) (q := q)
    (time := (lineGiven w n s).time) hroom
  have hattr : attributeLine n (lineGiven w n s) (afterLock w n s)
      = openAndPlace n b q (lineGiven w n s).time (afterLock w n s) := by
    have hnext := attributeLine_next (n := n) (u := afterLock w n s) (b := b) (line := lineGiven w n s)
      (by rw [afterLock_eq]; exact hm) (by rw [afterLock_eq]; exact hb)
    rw [afterLock_plan, (afterLock_same w n s).table, hbase] at hnext
    exact hnext hlow hhigh
  have hpassed : ∀ h ∈ (fixedNewest fs).map (Frame.passBy p n), h.number ≠ b.frame := by
    intro h' hmem
    obtain ⟨h, hfixed, rfl⟩ := List.mem_map.mp hmem
    obtain ⟨a, ha, hnumber⟩ := fixedNewest_number hfixed
    exact fun e => hne a ha (hnumber.trans ((passBy_number p n h).symm.trans e))
  have hseal : s.table.openFrames.length = 0 ∨ ∀ y : State, y.livePlan = s.livePlan →
      (∃ l, y.lanes = s.lanes.set n l) → (∃ g, y.table.openFrames = (fixedNewest fs).map (Frame.passBy p n) ++ [g]) →
      sealTest y = false := by
    cases hfs : s.table.openFrames with
    | nil => exact .inl rfl
    | cons a rest =>
      obtain ⟨m, hmn, hen, hlocked, hbit⟩ := hawaited a rest hfs
      obtain ⟨fixed, tail, hcons⟩ := fixedNewest_cons a rest
      refine .inr fun y hplan hlanes hframes => ?_
      obtain ⟨l, hlanes⟩ := hlanes
      obtain ⟨g, hframes⟩ := hframes
      have haw : Awaited (some n) s { a with fixed := fixed } :=
        .inr ⟨m, fun e => hmn (Option.some.inj e).symm, hen, hlocked, hbit⟩
      refine sealTest_awaited (o := Frame.passBy p n { a with fixed := fixed }) (rest := tail.map (Frame.passBy p n) ++ [g])
        ?_ (awaited_passedBy (passedBy_passBy p n _) hplan hlanes haw)
      rw [hframes]
      show (fixedNewest s.table.openFrames).map _ ++ _ = _
      rw [hfs, hcons]
      rfl
  have hlines := lineAnswers_placed (slot := slot) h hp (hattr.trans hopen) (attributed_openedState ..) rfl hpassed rfl rfl
    (hseal.imp_right fun hno => hno _ rfl ⟨_, rfl⟩ ⟨_, rfl⟩)
  refine ⟨_, (fixedNewest fs).map (Frame.passBy p n), _, hlines, ?_, (List.length_map _).trans (fixedNewest_length fs),
    fun i h hi => ?_, rfl, rowsOnOpening rfl rfl rfl hrows, fun hfs => ?_, fun a a' ha ha' => ?_⟩
  · exact openedState_eq ..
  · exact ⟨_, by rw [List.getElem?_map, fixedNewest_getElem? hi]; rfl, passedBy_passBy p n _⟩
  · have hnil : fixedNewest s.table.openFrames = [] := by rw [show s.table.openFrames = [] from hfs]; rfl
    rw [hnil] at ho ho'
    cases ho
    cases ho'
    exact timerOnceSeen_same (o := frameWithLine p n b slot q (lineGiven w n s).time rows) _
  · obtain ⟨rest, hfs⟩ := List.head?_eq_some_iff.mp ha
    obtain ⟨fixed, tail, hcons⟩ := fixedNewest_cons a rest
    have hfixed : fixedNewest s.table.openFrames = { a with fixed := fixed } :: tail := by
      rw [show s.table.openFrames = a :: rest from hfs, hcons]
    rw [hfixed] at ho ho'
    cases ho
    cases ho'
    rw [show fixedNewest fs = _ from hfixed] at ha'
    cases ha'
    rfl

end Sys2Proof.Machine
end

section
/-! A line whose lane is the last that the oldest open frame awaited: the frame seals by its lanes (R108 to R118). -/

namespace Sys2Proof.Machine

/-! ### The seal by the lanes -/

section
variable {s y : State} {f g : Frame} {rest : List Frame} {k : Fin 32}

/-- A lane whose line is accepted is LOCKED (R28 to R31). -/
theorem lockRule_accepted {e : LaneEntry} {seq : Half} {pos : Count} {l : LaneTracker}
    (h : (lockRule e seq pos l).accepted = true) : (lockRule e seq pos l).lane.state = .locked := by
  have hbegin (count : Nat) (l : LaneTracker) (h : (beginLock count l).2 = true) : (beginLock count l).1.state = .locked := by
    unfold beginLock at h ⊢
    split at h
    next hc => rw [if_pos hc]
    next => cases h
  unfold lockRule at h ⊢
  cases hs : l.state with
  | off => rw [hs] at h; cases h
  | seeking =>
    rw [hs] at h
    exact hbegin _ _ h
  | locking =>
    rw [hs] at h
    dsimp only at h ⊢
    unfold lockLocking at h ⊢
    dsimp only at h ⊢
    split at h
    · split at h
      next hfollows hcount => rw [if_pos hfollows, if_pos hcount]
      next => cases h
    · cases h
  | locked =>
    rw [hs] at h
    dsimp only at h ⊢
    unfold lockLocked at h ⊢
    dsimp only at h ⊢
    split at h
    next => cases h
    next hdup =>
      rw [if_neg hdup]
      split at h
      next hgap => rw [if_pos hgap]; exact hs
      next hgap => rw [if_neg hgap]; exact hbegin _ _ h

theorem countMarkLost_report {f g : Frame} {s t : State} (hmark : f.markTaken = g.markTaken) (hnumber : f.number = g.number)
    (hlost : s.reg.markLost = t.reg.markLost) (hplan : s.livePlan = t.livePlan) (hreport : s.report = t.report) :
    (countMarkLost f s).report = (countMarkLost g t).report := by
  unfold countMarkLost
  rw [hmark, hnumber, hlost]
  split
  · exact hreport
  · dsimp only
    show (ite (s.livePlan.run.markLostLimit ≠ 0 ∧ s.livePlan.run.markLostLimit ≤ _) _ _ : State).report
      = (ite (t.livePlan.run.markLostLimit ≠ 0 ∧ t.livePlan.run.markLostLimit ≤ _) _ _ : State).report
    rw [hplan]
    split
    · exact congrArg (fun r : ReportUnit => r.onLatch latchMarkLost (Latch.raise _)) hreport
    · exact hreport

theorem countMarkLost_exact (f : Frame) (s : State) :
    countMarkLost f s = { s with reg := s.reg.afterSeal f, report := (countMarkLost f s).report } := by
  obtain ⟨ls, h⟩ := countMarkLost_eq f s
  rw [h]
  rfl

theorem fixIfOnly_fixed (ho : s.table.openFrames = f :: rest) (hf : f.fixed = true) : fixIfOnly s = s := by
  unfold fixIfOnly
  rw [ho]
  cases rest with
  | nil =>
    dsimp only
    unfold fixNewest
    rw [ho]
    exact if_pos hf
  | cons => rfl

/-- Whether a frame that seals by its lanes is handed to the Patch Engine (R117, R127). -/
def handed (p : Plan) (f : Frame) : Bool := p.run.patchEnable && !(f.closeAll p).runs.isEmpty

/-- The state once the oldest frame, with slot k, has sealed by its lanes (R111, R115 to R117). -/
def lanesSealed (f : Frame) (rest : List Frame) (k : Fin 32) (s : State) : State :=
  { s with
    lanes := cutLanes f.number s.lanes
    reg := s.reg.afterSeal f
    report := (countMarkLost f s).report
    table := { s.table with
      openFrames := rest, sealTimer := s.table.sealTimer.stopFor f.number
      queue := s.table.queue ++ [.slot (slotEntryOf (f.sealedWith s.livePlan (linesInFlight f.number s.lanes) true) k
        (lanesStatus s.livePlan f) (handed s.livePlan f))]
      slots := s.table.slots.set k (if handed s.livePlan f then .patching else .ready) } }

theorem sealOldest_lanes (ho : s.table.openFrames = f :: rest) (hf : f.fixed = true) (hk : f.slot = some k) :
    sealOldest .lanes s = lanesSealed f rest k s := by
  have hdone : sealedFrame s f = f.sealedWith s.livePlan (linesInFlight f.number s.lanes) true := by
    have hsame : ({ f with damaged := f.damaged, fixed := true } : Frame) = f := by rw [← hf]
    have := sealedFrame_eq (u := s) (f := f) (d := f.damaged) (cut := linesInFlight f.number s.lanes) true rfl
    rwa [hsame] at this
  have hslot : (f.sealedWith s.livePlan (linesInFlight f.number s.lanes) true).slot = some k :=
    (Frame.sealedWith_slot _ _ _ f).trans hk
  have hstatus : sealStatus .lanes (f.sealedWith s.livePlan (linesInFlight f.number s.lanes) true) = lanesStatus s.livePlan f := by
    unfold sealStatus
    rw [hslot]
    rfl
  have hlive : lanesStatus s.livePlan f ≠ .aborted := by
    unfold lanesStatus
    split <;> exact nofun
  have hmark : (f.sealedWith s.livePlan (linesInFlight f.number s.lanes) true).markTaken = f.markTaken :=
    Frame.closeAll_markTaken _ f
  have hseal : sealOldest .lanes s = sealFrame .lanes f rest s := by
    unfold sealOldest
    rw [fixIfOnly_fixed ho hf]
    dsimp only
    rw [ho]
  rw [hseal]
  unfold sealFrame
  dsimp only
  rw [hdone]
  generalize hu : ({ s with
    lanes := cutLanes f.number s.lanes
    table := { s.table with openFrames := rest, sealTimer := s.table.sealTimer.stopFor f.number } } : State) = u
  have hreport : (countMarkLost (f.sealedWith s.livePlan (linesInFlight f.number s.lanes) true) u).report
      = (countMarkLost f s).report := by
    rw [← hu]
    exact countMarkLost_report hmark (Frame.closeAll_number _ f) rfl rfl rfl
  have hreg : u.reg.afterSeal (f.sealedWith s.livePlan (linesInFlight f.number s.lanes) true) = s.reg.afterSeal f := by
    rw [← hu]
    unfold Registration.afterSeal
    rw [hmark]
  rw [countMarkLost_exact, hreport, hreg, ← hu]
  unfold enqueueSealed
  rw [hslot]
  dsimp only
  rw [hstatus, decide_eq_true hlive, Bool.and_true]
  rfl

end

/-! ### One seal, and no more (R110, R118) -/

section
variable {s y u : State} {f g o : Frame} {rest : List Frame} {k : Fin 32}

theorem evalSealTest_once (h : sealTest y = true) (hu : sealAndTurn .lanes y = u) (hstop : sealTest u = false) :
    evalSealTest y = u := by
  have hopen : y.table.openFrames ≠ [] := by
    intro hnil
    unfold sealTest at h
    rw [hnil] at h
    cases h
  obtain ⟨m, hm⟩ := Nat.exists_eq_succ_of_ne_zero fun hzero => hopen (List.length_eq_zero_iff.mp hzero)
  unfold evalSealTest
  rw [hm, cascade, if_pos h, hu]
  cases m with
  | zero => rfl
  | succ m => rw [cascade, if_neg (by rw [hstop]; exact Bool.false_ne_true)]

theorem sealTest_passed (ho : y.table.openFrames = f :: rest) (hfixed : f.fixed = true)
    (hpassed : ∀ m : Lane, y.livePlan.run.laneEnable.getLsbD m.val = true → y.lanes[m].state = .locked →
      f.passed.getLsbD m.val = true) : sealTest y = true := by
  unfold sealTest
  rw [ho]
  dsimp only
  rw [hfixed, Bool.true_and]
  refine List.all_eq_true.mpr fun m _ => ?_
  by_cases hm : y.livePlan.enabled m = true ∧ y.lanes[m].state = .locked
  · rw [hpassed m hm.1 hm.2, Bool.or_true]
  · have : (y.livePlan.enabled m && decide (y.lanes[m].state = .locked)) = false := by
      rw [← Bool.not_eq_true, Bool.and_eq_true, decide_eq_true_eq]
      exact hm
    rw [this]
    rfl

/-- In CONTINUOUS mode the seal by the lanes of a frame with another behind it turns the seal timer to that (R112, R118). -/
theorem sealAndTurn_continuous (ho : y.table.openFrames = f :: g :: rest) (hf : f.fixed = true) (hk : f.slot = some k)
    (hm : y.capture.mode = .continuous) : sealAndTurn .lanes y = { lanesSealed f (g :: rest) k y with
      table := { (lanesSealed f (g :: rest) k y).table with
        sealTimer := timerOnceSeen false y.livePlan.run g (y.table.sealTimer.stopFor f.number) } } := by
  have hend : singleEnd (lanesSealed f (g :: rest) k y) = lanesSealed f (g :: rest) k y := by
    unfold singleEnd
    refine if_neg fun hx => ?_
    have := hm.symm.trans hx.2
    cases this
  unfold sealAndTurn
  rw [sealOldest_lanes ho hf hk, hend, loadSealTimer_eq rfl]
  rfl

/-! ### The lanes and the slot of a frame that has sealed -/

theorem cutLanes_getElem (number : Count) (v : Vector LaneTracker 8) (m : Lane) :
    (cutLanes number v)[m] = { v[m] with context := v[m].context.afterSeal number } := by
  simp [cutLanes]

/-- What a seal leaves of a lane: a line in flight into the frame is DISCARDING, and every other lane stays (R116). -/
theorem cutLanes_cases (number : Count) (v : Vector LaneTracker 8) (m : Lane) :
    (∀ l i pl, v[m].context = .taking l number i pl → (cutLanes number v)[m] = { v[m] with context := .discarding l })
      ∧ (v[m].context.takingInto number = false → (cutLanes number v)[m] = v[m]) := by
  rw [cutLanes_getElem]
  refine ⟨fun l i pl h => ?_, fun h => ?_⟩
  · rw [h, LineContext.afterSeal, if_pos rfl]
  · have hsame : v[m].context.afterSeal number = v[m].context := by
      cases hc : v[m].context with
      | taking l frame i pl =>
        rw [hc] at h
        exact if_neg (of_decide_eq_false h)
      | _ => rfl
    rw [hsame]

/-- What the take-up makes of a frame that has just joined the tail of the seal queue with a slot (R117, R127 to R129). -/
theorem takeUp_afterSeal {status : FrameStatus} {cut : Nat} {b : Bool} (hquiet : Quiet s)
    (hk : f.slot = some k) (hne : ∀ e, .slot e ∈ s.table.queue → e.slot ≠ k) (hplan : u.plan = s.plan)
    (hpatch : u.patch = s.patch)
    (hqueue : u.table.queue = s.table.queue
      ++ [.slot (slotEntryOf (f.sealedWith s.livePlan cut b) k status (handed s.livePlan f))])
    (hslots : u.table.slots = s.table.slots.set k (if handed s.livePlan f then .patching else .ready)) :
    ∃ e c sl, takeUp u = { u with patch := c, table := { u.table with
        queue := s.table.queue ++ [.slot e], slots := s.table.slots.set k sl } }
      ∧ SealedEntry s.livePlan status cut f e ∧ HandedOn s.livePlan f e sl s.patch c := by
  have hlive : u.livePlan = s.livePlan := by unfold State.livePlan; rw [hplan]
  have hidle : u.patch = .idle → ∀ e', .slot e' ∈ s.table.queue → u.table.slots[e'.slot] ≠ .patching := by
    intro hi e' he'
    have hne' : (k : Nat) ≠ e'.slot := fun h => hne e' he' (Fin.ext h.symm)
    rw [hslots, Fin.getElem_fin, Vector.getElem_set_ne _ _ hne']
    exact firstPatching_none_iff.mp (hquiet.1 (hpatch ▸ hi)) e' he'
  obtain ⟨e, c, sl, htake, hcore, hand⟩ := takeUp_handedOn (u := u) (f := f) (patched := handed s.livePlan f)
    (by rw [hlive]; rfl) hqueue hne hidle (by rw [hslots]; exact Vector.getElem_set_self _) (by rw [hlive]; rfl) rfl
  rw [hlive, hpatch] at hand
  refine ⟨e, c, sl, ?_, sealedEntry_core hcore (sealedEntry_slotEntryOf cut b _ status hk), hand⟩
  rw [htake, hslots]
  exact congrArg (fun v => ({ u with patch := c, table := { u.table with
    queue := s.table.queue ++ [.slot e], slots := v } } : State)) (Vector.set_set ..)

end

/-! ### Part 4 of O15 -/

section
variable {w : FabricWrite} {n : Lane} {s : State} {o o' f g : Frame} {younger : List Frame} {c q : Nat} {k : Fin 32}

/-- What moving a lane past a frame leaves alone. -/
theorem passBy_keeps (p : StaticPlan) (n : Lane) (f : Frame) :
    (f.passBy p n).number = f.number ∧ (f.passBy p n).slot = f.slot ∧ (f.passBy p n).fixed = f.fixed
      ∧ (f.passBy p n).markTaken = f.markTaken
      ∧ ∀ m : Lane, m ≠ n → (f.passBy p n).passed.getLsbD m.val = f.passed.getLsbD m.val := by
  obtain ⟨hclosed, hopen⟩ := passedBy_passBy p n f
  cases hc : f.cursors[n] with
  | closed =>
    rw [hclosed hc]
    exact ⟨rfl, rfl, rfl, rfl, fun _ _ => rfl⟩
  | expects c =>
    rw [hopen c hc]
    exact ⟨rfl, rfl, rfl, rfl, fun m hm => getLsbD_setLaneBit hm⟩

/-- A lane has its bit in the passed mask of a frame that it has been moved past. -/
theorem passBy_passed (p : StaticPlan) (n : Lane) (f : Frame)
    (h : f.cursors[n] = .closed → f.passed.getLsbD n.val = true) : (f.passBy p n).passed.getLsbD n.val = true := by
  obtain ⟨hclosed, hopen⟩ := passedBy_passBy p n f
  cases hc : f.cursors[n] with
  | closed =>
    rw [hclosed hc]
    exact h hc
  | expects c =>
    rw [hopen c hc]
    have hn := n.isLt
    show (f.passed ||| 1#8 <<< n.val).getLsbD n.val = true
    rw [BitVec.getLsbD_or, BitVec.getLsbD_shiftLeft, BitVec.getLsbD_one]
    simp [hn]

/-- The lanes with a line in flight into a frame are those of the state before, when lane n had none and its new line lies in
another frame. -/
theorem linesInFlight_set {number : Count} {l : LaneTracker} (hf : NoLineInFlight n s)
    (hl : l.context.takingInto number = false) : linesInFlight number (s.lanes.set n l) = s.cutsInto number := by
  have hn : s.lanes[n].context.takingInto number = false := by
    cases hc : s.lanes[n].context with
    | taking x frame i pl => exact absurd hc (hf x frame i pl)
    | _ => rfl
  unfold linesInFlight State.cutsInto
  rw [finRange_eight]
  congr 2
  funext m
  by_cases hm : n.val = m.val
  · obtain rfl : n = m := Fin.ext hm
    rw [hn]
    simp [hl]
  · rw [Fin.getElem_fin, Fin.getElem_fin, Vector.getElem_set_ne _ _ hm]

theorem stopFor_timerOnceSeen {before : Bool} {run : RunPlan} {number : Count} {t : SealTimer} (ho : o.number = number)
    (ht : t = .idle ∨ ∃ r, t = .running number r) : (timerOnceSeen before run o t).stopFor number = .idle := by
  rcases ht with rfl | ⟨r, rfl⟩
  · unfold timerOnceSeen
    dsimp only
    split
    · exact if_pos ho
    · rfl
  · exact if_pos rfl

theorem rowsFollow_markLost {newest : Prop} {row : Nat} {t : State} (h : RowsFollow newest row f g s t) :
    t.reg.markLost = s.reg.markLost := by
  by_cases hrec : newest ∧ f.fixed = false ∧ ∀ h, f.hi = some h → h < row
  · rw [(h.1 hrec).2]
  · rw [(h.2 hrec).2]

/-- The lane that has moved past the oldest frame was the last that it awaited, and the next frame awaits that lane: one seal. -/
theorem evalSealTest_lastLane {y : State} {l : LaneTracker} (hlive : y.livePlan = s.livePlan)
    (hlanes : y.lanes = s.lanes.set n l) (hlocked : l.state = .locked) (ho : y.table.openFrames = f :: g :: younger)
    (hfixed : f.fixed = true) (hk : f.slot = some k) (hm : y.capture.mode = .continuous)
    (hothers : ∀ m : Lane, m ≠ n → s.livePlan.run.laneEnable.getLsbD m.val = true → s.lanes[m].state = .locked →
      f.passed.getLsbD m.val = true)
    (hmine : f.passed.getLsbD n.val = true) (hen : s.livePlan.run.laneEnable.getLsbD n.val = true)
    (hbit : g.passed.getLsbD n.val = false) :
    evalSealTest y = { lanesSealed f (g :: younger) k y with
      table := { (lanesSealed f (g :: younger) k y).table with
        sealTimer := timerOnceSeen false y.livePlan.run g (y.table.sealTimer.stopFor f.number) } } := by
  refine evalSealTest_once (sealTest_passed ho hfixed fun m hm hstate => ?_) (sealAndTurn_continuous ho hfixed hk hm)
    (sealTest_awaited rfl (.inr ⟨n, nofun, ?_, ?_, hbit⟩))
  · by_cases hmn : m = n
    · rw [hmn]
      exact hmine
    · have hne : n.val ≠ m.val := fun e => hmn (Fin.ext e.symm)
      rw [hlanes, Fin.getElem_fin, Vector.getElem_set_ne _ _ hne] at hstate
      exact hothers m hmn (hlive ▸ hm) hstate
  · show y.livePlan.run.laneEnable.getLsbD n.val = true
    rw [hlive]
    exact hen
  · show (cutLanes f.number y.lanes)[n].state = .locked
    rw [cutLanes_getElem, hlanes]
    simp only [Fin.getElem_fin, Vector.getElem_set_self]
    exact hlocked

/-- A lane's line in another frame is not cut, and may as well be advanced before the cut. -/
theorem cutLanes_set {number : Count} (v : Vector LaneTracker 8) {a b : LaneTracker}
    (hb : b.context.takingInto number = false) : (cutLanes number (v.set n a)).set n b = cutLanes number (v.set n b) := by
  ext1 i hi
  have hcut (u : Vector LaneTracker 8) : (cutLanes number u)[i] = { u[i] with context := u[i].context.afterSeal number } :=
    cutLanes_getElem number u ⟨i, hi⟩
  by_cases hin : n.val = i
  · subst hin
    rw [Vector.getElem_set_self]
    refine Eq.symm (((cutLanes_cases number (v.set n b) n).2 ?_).trans ?_)
    · simpa using hb
    · simp
  · rw [Vector.getElem_set_ne _ _ hin, hcut, hcut, Vector.getElem_set_ne _ _ hin, Vector.getElem_set_ne _ _ hin]

/-- Part 4 of O15: with no other lane awaited, the oldest frame seals by its lanes. -/
theorem acceptedLine_seals (h : AcceptedRunning w n s) (hp : PartOfLine w n s) (hm : s.capture.mode = .continuous)
    (hb : s.reg.next ≠ none) (ho : s.table.openFrames = o :: f :: younger) (hc : f.cursors[n] = .expects c)
    (hne : f.number ≠ o.number) (hfixed : o.fixed = true) (hk : o.slot = some k)
    (hqueue : ∀ e, .slot e ∈ s.table.queue → e.slot ≠ k)
    (hclosed : o.cursors[n] = .closed → o.passed.getLsbD n.val = true)
    (hnot : ¬OtherAwaited n s o)
    (hen : s.livePlan.run.laneEnable.getLsbD n.val = true) (hbit : f.passed.getLsbD n.val = false) :
    let p := s.livePlan.static
    let extent : Nat := o.rows * p.phases
    let d := (tagPosition w n s - o.start).toInt
    let q := d.toNat - extent
    let place := placementOf p f.slot q
    let lanes := s.lanesTaking w n f.number q place
    ((extent + c : Nat) : Int) ≤ d → d < ((extent + f.rows * p.phases : Nat) : Int) →
    ∃ (x : State) (o' g : Frame) (e : SlotEntry), LineAnswers w n s x f.number q
      ∧ x = { s with
          lanes := x.lanes
          table := { s.table with
            openFrames := g :: younger
            slots := s.table.slots.set k x.table.slots[k]
            sealTimer := x.table.sealTimer
            queue := s.table.queue ++ [.slot e] }
          patch := x.patch
          reg := x.reg
          report := (countMarkLost o (s.lockRaised w n)).report
          held := s.heldTaking w n f.number place }
      ∧ PassedBy p n o o' ∧ LineCounted p n c q (readTag (windowData w n s)).time f g
      ∧ SealedEntry s.livePlan (lanesStatus s.livePlan o') (s.cutsInto o.number) o' e
      ∧ HandedOn s.livePlan o' e x.table.slots[k] s.patch x.patch
      ∧ (∀ (m : Lane) (l : LineExtent) (i : Nat) (pl : Placement), lanes[m].context = .taking l o.number i pl →
          x.lanes[m] = { lanes[m] with context := .discarding l })
      ∧ (∀ m : Lane, lanes[m].context.takingInto o.number = false → x.lanes[m] = lanes[m])
      ∧ (s.table.sealTimer = .idle ∨ (∃ r, s.table.sealTimer = .running o.number r) →
          x.table.sealTimer = timerOnceSeen false s.livePlan.run g .idle)
      ∧ x.reg.markLost = (if o.markTaken then s.reg.markLost else min 255 (s.reg.markLost + 1))
      ∧ RowsFollow (younger = []) (q / p.phases) f g s { x with reg := { x.reg with markLost := s.reg.markLost } } := by
  intro p extent d q place lanes hlow hhigh
  obtain ⟨hstart, hq, hno, hf, htag, ha, hd⟩ := h
  have hextent : extents s.livePlan.static [o] = extent := Nat.add_zero _
  obtain ⟨g, r, hcount, hrows, hattr⟩ := attributeLine_later (w := w) (mid := []) (q := q) hm hb ho hc
    (by rw [hextent]; exact hlow) (by rw [hextent]; exact hhigh) (by rw [hextent])
  obtain ⟨hnumber, hslot, -, hpassed⟩ := lineCounted_keeps hcount
  obtain ⟨honumber, hoslot, hofixed, homark, hobits⟩ := passBy_keeps p n o
  obtain ⟨T, hT⟩ : ∃ T, T = timerOnceSeen o.endSeen s.livePlan.run (o.passBy p n) s.table.sealTimer := ⟨_, rfl⟩
  rw [← hT] at hattr
  have htake := takeLine_eq (s := s) (w := w) (n := n) (q := q)
    (t := placedState w n s ([o.passBy p n] ++ g :: younger) T r) rfl rfl rfl (by simpa [honumber] using hne.symm) hnumber hslot
  obtain ⟨y, hy⟩ : ∃ y, evalSealTest (takeLine n (lineOf w n s) f.number q
      (placedState w n s ([o.passBy p n] ++ g :: younger) T r)) = y := ⟨_, rfl⟩
  have hothers (m : Lane) (hmn : m ≠ n) (hm : s.livePlan.run.laneEnable.getLsbD m.val = true)
      (hlocked : s.lanes[m].state = .locked) : (o.passBy p n).passed.getLsbD m.val = true := by
    rw [hobits m hmn, ← Bool.not_eq_false]
    exact fun hbit => hnot ⟨m, hmn, hm, hlocked, hbit⟩
  have hseal := hy.symm.trans ((congrArg evalSealTest htake).trans
    (evalSealTest_lastLane (s := s) (n := n) (g := g) (younger := younger) (f := o.passBy p n) (k := k)
      (l := { (lockOf w n s).lane with context := .taking (lineOf w n s) f.number q place }) rfl rfl
      (lockRule_accepted (e := s.entry n) ha) rfl (hofixed.trans hfixed) (hoslot.trans hk) hm hothers
      (passBy_passed p n o hclosed) hen (hpassed ▸ hbit)))
  have hother : (LineContext.taking (lineOf w n s) f.number q place).takingInto o.number = false := decide_eq_false hne
  have hcut : linesInFlight o.number (s.lanes.set n { (lockOf w n s).lane with
      context := .taking (lineOf w n s) f.number q place }) = s.cutsInto o.number := linesInFlight_set hf hother
  have hylanes : y.lanes = cutLanes o.number (s.lanes.set n { (lockOf w n s).lane with
      context := .taking (lineOf w n s) f.number q place }) := by
    rw [hseal, ← honumber]
    rfl
  have hlane : y.lanes[n] = { (lockOf w n s).lane with context := .taking (lineOf w n s) f.number q place } := by
    rw [hylanes]
    refine ((cutLanes_cases _ _ n).2 ?_).trans ?_
    · simpa using hother
    · simp
  have hexec := exec_placed (y := y) (place := place) ⟨hstart, hq, hno, hf, htag, ha, hd⟩ hp hattr rfl
    ((if_neg (Nat.succ_ne_zero 0)).trans hy) (by rw [hseal]; rfl) (by rw [hseal]; exact hd) hlane
  rw [hylanes, cutLanes_set _ (by exact hother)] at hexec
  obtain ⟨e, after, sl, htakeUp, hentry, hand⟩ := takeUp_afterSeal (s := s) (f := o.passBy p n) (k := k)
    (u := { y with lanes := cutLanes o.number lanes }) (cut := s.cutsInto o.number) (b := true)
    (status := lanesStatus s.livePlan (o.passBy p n)) hq (hoslot.trans hk) hqueue (by rw [hseal]; rfl) (by rw [hseal]; rfl)
    (by rw [hseal, ← hcut, ← honumber]; rfl) (by rw [hseal]; rfl)
  have hfinal := hexec.trans (congrArg (fun t : State => Host.Outcome.next (present (evaluateMark n
    (readTag (windowData w n s)).mark f.number (q / s.livePlan.static.phases) { t with held := s.heldTaking w n f.number place })))
    htakeUp)
  have hlost : r.markLost = s.reg.markLost := rowsFollow_markLost hrows
  have hreport : y.report = (countMarkLost o (s.lockRaised w n)).report := by
    obtain ⟨latches, hraised⟩ := lockRaised_latches s w n
    rw [hseal]
    exact countMarkLost_report homark honumber (by rw [hraised]; exact hlost) (by rw [hraised]; rfl) rfl
  have hset : (s.table.slots.set k sl)[k] = sl := by simp
  refine ⟨_, o.passBy p n, g, e, lineAnswers_of_exec (by rw [hseal]; rfl) hfinal, ?_, passedBy_passBy p n o, hcount, hentry,
    ?_, fun m l i pl hl => ?_, fun m hl => ?_, fun ht => ?_, ?_, ?_⟩
  · dsimp only
    rw [hset, ← hreport, hseal]
    rfl
  · dsimp only
    rw [hset]
    exact hand
  · exact (cutLanes_cases o.number lanes m).1 l i pl hl
  · exact (cutLanes_cases o.number lanes m).2 hl
  · rw [hseal]
    show timerOnceSeen false s.livePlan.run g (T.stopFor (o.passBy p n).number) = _
    rw [hT, honumber, stopFor_timerOnceSeen honumber ht]
  · rw [hseal]
    show (if (o.passBy p n).markTaken then r.markLost else min 255 (r.markLost + 1)) = _
    rw [homark, hlost]
  · have hreg : ({ y.reg with markLost := s.reg.markLost } : Registration) = r := by
      rw [hseal, ← hlost]
      rfl
    dsimp only
    rw [hreg]
    exact hrows

end

end Sys2Proof.Machine
end

section
/-! A line beyond the end of frame 0 in SINGLE mode (R57, R75, R81, R177), and the obligation on accepted lines. -/

namespace Sys2Proof.Machine

section
variable {w : FabricWrite} {n : Lane} {s : State} {f g : Frame} {k : Fin 32}

/-! ### The line moves its lane on past frame 0 (R57, R75, R81) -/

/-- Frame 0 once a line beyond its end has been seen: N is fixed, the lane has moved on, and end-seen is set. -/
def beyondFrame (p : StaticPlan) (n : Lane) (f : Frame) : Frame :=
  { Frame.passBy p n { f with fixed := true } with endSeen := true }

/-- The registration once N of frame 0 is fixed (R57). -/
def beyondReg (f : Frame) (r : Registration) : Registration :=
  if f.fixed then r else { r with next := r.next.map fun b => { b with fixed := true }, correction := 0 }

theorem beyondReg_origin (f : Frame) (r : Registration) : (beyondReg f r).origin = r.origin := by
  unfold beyondReg
  split <;> rfl

/-- The state in which a line beyond the end of frame 0 leaves attribution. -/
def beyondState (w : FabricWrite) (n : Lane) (s : State) (f : Frame) : State :=
  placedState w n s [beyondFrame s.livePlan.static n f]
    (timerOnceSeen f.endSeen s.livePlan.run (beyondFrame s.livePlan.static n f) s.table.sealTimer) (beyondReg f s.reg)

theorem attributeLine_beyond (hm : s.capture.mode = .single) (ho : s.table.openFrames = [f])
    (hfar : ((f.rows * s.livePlan.static.phases : Nat) : Int) ≤ (tagPosition w n s - f.start).toInt) :
    attributeLine n (lineGiven w n s) (afterLock w n s) = (.beyond, beyondState w n s f) := by
  have hpass : passSingle n (afterLock w n s) = beyondState w n s f := by
    unfold passSingle
    rw [afterLock_eq, fixNewest_newest (older := []) (by exact ho)]
    dsimp only
    rw [timerOnEndSeen_eq rfl]
    rfl
  have hbeyond : beyondSingle (afterLock w n s).livePlan.static (lineGiven w n s) f = true := by
    rw [afterLock_plan]
    exact decide_eq_true hfar
  have hbehind : ¬((lineGiven w n s).pos - f.start).toInt < 0 := by
    show ¬(tagPosition w n s - f.start).toInt < 0
    omega
  unfold attributeLine
  rw [(afterLock_same w n s).capture, hm]
  dsimp only
  unfold attributeSingle
  rw [(afterLock_same w n s).table, ho]
  dsimp only
  rw [if_neg hbehind, hbeyond, if_pos rfl, hpass]

theorem runLine_beyond {line : Line} {x : LineExtent} {u t : State} (h : attributeLine n line u = (.beyond, t)) :
    runLine n line x u = evalSealTest (setContext n (.discarding x) t) := by
  unfold runLine
  rw [h]

/-- The lane once the line is dropped: its lock, with the line DISCARDING. -/
theorem setContext_beyond (w : FabricWrite) (n : Lane) (s : State) (f : Frame) (x : LineExtent) :
    setContext n (.discarding x) (beyondState w n s f)
      = { beyondState w n s f with lanes := s.lanes.set n { (lockOf w n s).lane with context := .discarding x } } := by
  unfold setContext onLane beyondState placedState
  simp only [set_set, Fin.getElem_fin, Vector.getElem_set_self]

/-! ### Another lane is awaited -/

/-- Part 5 of O15: frame 0 stays open, and the seal timer is loaded. -/
theorem acceptedLine_beyond (h : AcceptedRunning w n s) (hm : s.capture.mode = .single) (ho : s.table.openFrames = [f])
    (hfar : ((f.rows * s.livePlan.static.phases : Nat) : Int) ≤ (tagPosition w n s - f.start).toInt)
    (haw : OtherAwaited n s f) :
    exec (.lineStart w) s = .next (present { beyondState w n s f with
      lanes := s.lanesDropped w n (lockOf w n s).lane, held := none }) := by
  obtain ⟨hstart, hq, hno, hf, htag, ha, hd⟩ := h
  obtain ⟨m, hmn, hen, hlocked, hbit⟩ := haw
  have hattr := attributeLine_beyond hm ho hfar
  have htest : sealTest (setContext n (.discarding (lineOf w n s)) (beyondState w n s f)) = false := by
    rw [setContext_beyond]
    have hfixed : Awaited (some n) s { f with fixed := true } :=
      .inr ⟨m, fun e => hmn (Option.some.inj e).symm, hen, hlocked, hbit⟩
    have hpassed : Awaited none { beyondState w n s f with
        lanes := s.lanes.set n { (lockOf w n s).lane with context := .discarding (lineOf w n s) } }
        (Frame.passBy s.livePlan.static n { f with fixed := true }) :=
      awaited_passedBy (s := s) (l := { (lockOf w n s).lane with context := .discarding (lineOf w n s) })
        (passedBy_passBy s.livePlan.static n { f with fixed := true }) rfl rfl hfixed
    exact sealTest_awaited (o := beyondFrame s.livePlan.static n f) (rest := []) rfl hpassed
  have hl := (lockAndPlace_running hf ha hd).trans ((runLine_beyond hattr).trans (evalSealTest_of_not htest))
  have hsettle : settle { beyondState w n s f with lanes := s.lanesDropped w n (lockOf w n s).lane }
      = { beyondState w n s f with lanes := s.lanesDropped w n (lockOf w n s).lane } :=
    settle_filling (slot := none) hq nofun rfl rfl rfl hd
  rw [exec_settled hstart hno htag rfl hl, hsettle]

/-! ### No other lane is awaited (R110, R177) -/

/-- The lanes after the end of a single capture, whatever lines the seal of frame 0 cut (R40, R177). -/
theorem turnedOff_cutLanes (number : Count) (v : Vector LaneTracker 8) (l : LaneTracker) (c : LineContext) :
    (Vector.ofFn fun m : Lane => (cutLanes number (v.set n { l with context := c }))[m].turnedOff)
      = lanesAllOff true (v.set n l) := by
  unfold lanesAllOff
  congr 1
  funext m
  rw [cutLanes_getElem]
  by_cases hm : n.val = m.val
  · obtain rfl : n = m := Fin.ext hm
    simp [LaneTracker.turnedOff]
  · rw [Fin.getElem_fin, Fin.getElem_fin, Vector.getElem_set_ne _ _ hm, Vector.getElem_set_ne _ _ hm]
    rfl

/-- With the last open frame sealed by its lanes, in SINGLE mode, the capture ends (R118, R177). -/
theorem sealAndTurn_single {y : State} (ho : y.table.openFrames = [f]) (hf : f.fixed = true) (hk : f.slot = some k)
    (hd : y.capture.device = .running) (hm : y.capture.mode = .single) :
    sealAndTurn .lanes y = { lanesSealed f [] k y with
      lanes := Vector.ofFn fun m : Lane => (cutLanes f.number y.lanes)[m].turnedOff
      capture := { y.capture with device := .draining, drainCause := .singleDone } } := by
  have hend : singleEnd (lanesSealed f [] k y) = { lanesSealed f [] k y with
      lanes := Vector.ofFn fun m : Lane => (cutLanes f.number y.lanes)[m].turnedOff
      capture := { y.capture with device := .draining, drainCause := .singleDone } } := by
    unfold singleEnd
    rw [if_pos (by exact ⟨hd, hm⟩), lanesOff_closed rfl]
    rfl
  unfold sealAndTurn
  rw [sealOldest_lanes ho hf hk, hend]
  rfl

/-- A burst in place of no line has nothing to deal with. -/
theorem burstInPlace_none {u : State} (bytes : List Byte) (h : u.lanes[n].context = .none) :
    burstInPlace n bytes u = (u, []) := by
  have hsame : setContext n .none u = u := by
    unfold setContext onLane
    rw [← h]
    show ({ u with lanes := u.lanes.set n u.lanes[n] } : State) = u
    rw [Fin.getElem_fin, Vector.set_getElem_self]
  unfold burstInPlace
  rw [h]
  exact congrArg (fun t => (t, ([] : List Derived))) hsame

/-- Part 6 of O15: frame 0 seals by its lanes, and the capture ends. -/
theorem acceptedLine_ends (h : AcceptedRunning w n s) (hm : s.capture.mode = .single) (ho : s.table.openFrames = [f])
    (hfar : ((f.rows * s.livePlan.static.phases : Nat) : Int) ≤ (tagPosition w n s - f.start).toInt)
    (hk : f.slot = some k) (hqueue : ∀ e, .slot e ∈ s.table.queue → e.slot ≠ k)
    (hclosed : s.livePlan.run.laneEnable.getLsbD n.val = true → f.cursors[n] = .closed → f.passed.getLsbD n.val = true)
    (hnot : ¬OtherAwaited n s f) :
    ∃ (u : State) (e : SlotEntry), exec (.lineStart w) s = .next u
      ∧ u.table.openFrames = [] ∧ u.table.queue = s.table.queue ++ [.slot e]
      ∧ (s.table.sealTimer = .idle ∨ (∃ r, s.table.sealTimer = .running f.number r) → u.table.sealTimer = .idle)
      ∧ SealedEntry s.livePlan (lanesStatus s.livePlan (beyondFrame s.livePlan.static n f)) (s.cutsInto f.number)
          (beyondFrame s.livePlan.static n f) e
      ∧ HandedOn s.livePlan (beyondFrame s.livePlan.static n f) e u.table.slots[k] s.patch u.patch
      ∧ u.lanes = lanesAllOff true (s.lanes.set n (lockOf w n s).lane) ∧ u.held = none ∧ SingleEnded s u := by
  obtain ⟨hstart, hq, hno, hf, htag, ha, hd⟩ := h
  have hattr := attributeLine_beyond hm ho hfar
  obtain ⟨hnumber, hslot, hfixed, -, hbits⟩ := passBy_keeps s.livePlan.static n { f with fixed := true }
  have htest : sealTest (setContext n (.discarding (lineOf w n s)) (beyondState w n s f)) = true := by
    rw [setContext_beyond]
    refine sealTest_passed (f := beyondFrame s.livePlan.static n f) (rest := []) rfl hfixed fun m hen hlocked => ?_
    by_cases hmn : m = n
    · subst hmn
      exact passBy_passed s.livePlan.static m { f with fixed := true } (hclosed hen)
    · have hne : n.val ≠ m.val := fun e => hmn (Fin.ext e.symm)
      have hlocked' : s.lanes[m].state = .locked := by
        rw [Fin.getElem_fin, Vector.getElem_set_ne _ _ hne] at hlocked
        exact hlocked
      refine (hbits m hmn).trans ?_
      rw [← Bool.not_eq_false]
      exact fun hbit => hnot ⟨m, hmn, hen, hlocked', hbit⟩
  obtain ⟨v, hv⟩ : ∃ v, sealAndTurn .lanes (setContext n (.discarding (lineOf w n s)) (beyondState w n s f)) = v := ⟨_, rfl⟩
  have hseal := hv.symm.trans ((congrArg (sealAndTurn .lanes) (setContext_beyond ..)).trans
    (sealAndTurn_single (f := beyondFrame s.livePlan.static n f) rfl hfixed (hslot.trans hk) hd hm))
  have hstop : sealTest v = false := by rw [hseal]; rfl
  have hl := (lockAndPlace_running hf ha hd).trans ((runLine_beyond hattr).trans (evalSealTest_once htest hv hstop))
  have hlanes : v.lanes = lanesAllOff true (s.lanes.set n (lockOf w n s).lane) := by
    rw [hseal]
    exact turnedOff_cutLanes _ _ _ _
  have hnone : v.lanes[n].context = .none := by
    rw [hlanes]
    simp [lanesAllOff]
  have hr : landingBurst n w.addr.toNat (windowOffset w n s) w.tag w.data s = (v, []) := by
    rw [landingBurst_wellFormed hstart hno htag, hl]
    exact burstInPlace_none _ hnone
  have hexec : exec (.lineStart w) s = .next (present { settle v with held := none }) := (exec_landed hstart.1.1 hr).1
  have hcut : linesInFlight f.number (s.lanes.set n { (lockOf w n s).lane with
      context := .discarding (lineOf w n s) }) = s.cutsInto f.number := linesInFlight_set hf rfl
  obtain ⟨e, after, sl, htake, hentry, hand⟩ := takeUp_afterSeal (s := s) (f := beyondFrame s.livePlan.static n f) (k := k)
    (u := v) (cut := s.cutsInto f.number) (b := true)
    (status := lanesStatus s.livePlan (beyondFrame s.livePlan.static n f)) hq (hslot.trans hk) hqueue
    (by rw [hseal]; rfl) (by rw [hseal]; rfl) (by rw [hseal, ← hcut, ← hnumber]; rfl) (by rw [hseal]; rfl)
  obtain ⟨report, capture, hdrain, hended⟩ := drainTest_single (s := s) (w := takeUp v)
    (by rw [htake, hseal]; rfl) (by rw [htake, hseal]; rfl) (by rw [htake, hseal]; rfl)
    (by rw [htake, hseal]; exact beyondReg_origin f s.reg)
  have hend : settle v = { takeUp v with report := report, capture := capture } := hdrain
  have hset : (s.table.slots.set k sl)[k] = sl := by simp
  refine ⟨_, e, hexec, ?_, ?_, fun ht => ?_, hentry, ?_, ?_, (present_chosen _).path.held, ?_⟩
  · rw [present_table, hend, htake, hseal]
    rfl
  · rw [present_table, hend, htake]
  · rw [present_table, hend, htake, hseal]
    show (timerOnceSeen f.endSeen s.livePlan.run (beyondFrame s.livePlan.static n f) s.table.sealTimer).stopFor
      (beyondFrame s.livePlan.static n f).number = .idle
    rw [show (beyondFrame s.livePlan.static n f).number = f.number from hnumber]
    exact stopFor_timerOnceSeen hnumber ht
  · rw [(present_chosen _).only, hend, htake]
    dsimp only
    rw [hset]
    exact hand
  · rw [(present_chosen _).only, hend, htake]
    exact hlanes
  · exact SingleEnded.of_chosen (t := { settle v with held := none }) hended (present_chosen _)

end

/-- Settles O15: one lemma per part, by where the line lies and whether another lane is still awaited. -/
theorem acceptedLineIsTaken : Obligations.AcceptedLineIsTaken := by
  refine ⟨?within, ?later, ?next, ?seals, ?single⟩
  case within =>
    intro w n s f c h hp hb ho hc p d q place hlow hhigh
    exact acceptedLine_only h hp hb ho hc hlow hhigh
  case later =>
    intro w n s o f mid younger c h hp hm hb older ho hc hne haw p extent d q place hlow hhigh
    exact acceptedLine_later h hp hm hb ho hc hne haw hlow hhigh
  case next =>
    intro w n s b h hp hm hb fs hlen hne haw p base extent next d q slot place hlow hhigh
    exact acceptedLine_next h hp hm hb hlen hne haw hlow hhigh
  case seals =>
    intro w n s o f younger c k h hp hm hb ho hc hne hfixed hk hqueue hclosed hnot hen hbit p extent d q place lanes hlow hhigh
    exact acceptedLine_seals h hp hm hb ho hc hne hfixed hk hqueue hclosed hnot hen hbit hlow hhigh
  case single =>
    intro w n s f h hm ho p hfar beyond
    have hbeyond : beyond (Frame.passBy p n { f with fixed := true }) (beyondFrame p n f) :=
      ⟨passedBy_passBy p n { f with fixed := true }, rfl⟩
    refine ⟨fun haw => ?awaited, fun k hk hqueue hclosed hnot => ?ends⟩
    case awaited =>
      refine ⟨_, _, _, acceptedLine_beyond h hm ho hfar haw, hbeyond, ?_⟩
      rw [(present_chosen _).only]
      refine ⟨rfl, rfl, rfl, rfl, rfl, rfl, rfl, fun hf => ?_, fun hf => if_pos hf⟩
      have hreg : beyondReg f s.reg = { s.reg with
          next := s.reg.next.map fun b => { b with fixed := true }, correction := 0 } :=
        if_neg (by rw [hf]; exact Bool.false_ne_true)
      exact ⟨congrArg Registration.correction hreg, congrArg Registration.next hreg⟩
    case ends =>
      obtain ⟨u, e, hexec, hrest⟩ := acceptedLine_ends h hm ho hfar hk hqueue hclosed hnot
      exact ⟨u, _, _, e, hexec, hbeyond, hrest⟩

end Sys2Proof.Machine
end

section
/-! The correction, the row count and the next boundary by their formulas (R50 to R53, R58), and the origin mark of MARK
origin mode (R47, R48, R60). -/

namespace Sys2Proof.Machine

section
variable {p : Plan} {f : Frame}

/-! ### The ranges of plan checks 3 and 4 -/

/-- FRAME_ROWS and REPEAT_LEN as plan check 3 bounds them. -/
theorem check3_bounds (h3 : check3 p = true) :
    p.static.frameRows ≤ 65535 ∧ 16 * 65536 ≤ p.static.repeatLen ∧ p.static.repeatLen ≤ 65536 * p.static.frameRows := by
  simp only [check3, inRange, Bool.and_eq_true, decide_eq_true_eq] at h3
  unfold Config.fine at h3
  omega

/-- MARK_OFFSET and MARK_MAX_STEP as plan check 4 bounds them. -/
theorem check4_bounds (h4 : check4 p = true) :
    p.static.markOffset < p.static.repeatLen ∧ p.run.markMaxStep ≤ 8 * 65536 := by
  simp only [check4, inRange, Bool.and_eq_true, decide_eq_true_eq] at h4
  omega

/-! ### The clamped correction and N (R52, R53, R58) -/

/-- The lowest N that R52 lets a frame have: one above its highest row so far, and at least 1. -/
def Frame.leastRows (f : Frame) : Int := match f.hi with | none => 1 | some h => h + 1

theorem Frame.leastRows_le {h : Nat} (hpos : 1 ≤ h) (hhi : ∀ r, f.hi = some r → r < h) : f.leastRows ≤ h := by
  unfold leastRows
  cases hf : f.hi with
  | none => dsimp only; omega
  | some r => have := hhi r hf; dsimp only; omega

theorem Frame.lt_of_leastRows_le {n r : Nat} (h : f.leastRows ≤ n) (hr : f.hi = some r) : r < n := by
  unfold leastRows at h
  rw [hr] at h
  dsimp only at h
  omega

theorem corrLo_eq (p : Plan) (f : Frame) :
    corrLo p f = max (-(p.run.markMaxStep : Int)) (f.leastRows * 65536 - frameSpan p.static f.residue) := rfl

/-- The clamped correction lies between the two bounds of R52. -/
theorem corrClamped_mem (p : Plan) (pending : Int) (f : Frame) :
    corrLo p f ≤ corrClamped p pending f ∧ corrClamped p pending f ≤ corrHi p f := by
  have : corrLo p f ≤ corrHi p f := Int.le_max_left _ _
  unfold corrClamped
  omega

/-- A pending correction within both bounds of R52 is applied as it is. -/
theorem corrClamped_eq_pending {pending : Int} (hlo : corrLo p f ≤ pending) (hhi : pending ≤ corrHi p f) :
    corrClamped p pending f = pending := by
  unfold corrClamped
  omega

/-- T of R53 is at least the lowest row count that R52 lets a frame have, and at least eight rows, and it is below
FRAME_ROWS + 1 rows (R58). -/
theorem boundarySum_bounds (pending : Int) (h3 : check3 p = true) (h4 : check4 p = true) (hres : f.residue ≤ 65535)
    (hhi : ∀ r, f.hi = some r → r < p.static.frameRows) :
    f.leastRows * 65536 ≤ boundarySum p pending f ∧ 8 * 65536 ≤ boundarySum p pending f
      ∧ boundarySum p pending f < ((p.static.frameRows : Int) + 1) * 65536 := by
  obtain ⟨-, hlow, hup⟩ := check3_bounds h3
  obtain ⟨-, hstep⟩ := check4_bounds h4
  have hrow : f.leastRows ≤ p.static.frameRows := Frame.leastRows_le (by omega) hhi
  obtain ⟨hl, hh⟩ := corrClamped_mem p pending f
  unfold boundarySum
  unfold corrHi at hh
  rw [corrLo_eq] at hl hh
  unfold frameSpan at *
  omega

theorem provisionalRows_eq (pending : Int) (h3 : check3 p = true) (h4 : check4 p = true) (hres : f.residue ≤ 65535)
    (hhi : ∀ r, f.hi = some r → r < p.static.frameRows) :
    (provisionalRows p pending f : Int) = boundarySum p pending f / 65536 := by
  have := boundarySum_bounds pending h3 h4 hres hhi
  unfold provisionalRows
  omega

/-- N is above the highest row so far, at least 8 and at most FRAME_ROWS (R58). -/
theorem provisionalRows_bounds (pending : Int) (h3 : check3 p = true) (h4 : check4 p = true) (hres : f.residue ≤ 65535)
    (hhi : ∀ r, f.hi = some r → r < p.static.frameRows) :
    (∀ r, f.hi = some r → r < provisionalRows p pending f) ∧ 8 ≤ provisionalRows p pending f
      ∧ provisionalRows p pending f ≤ p.static.frameRows := by
  have hn := provisionalRows_eq pending h3 h4 hres hhi
  obtain ⟨hrow, height, htop⟩ := boundarySum_bounds pending h3 h4 hres hhi
  exact ⟨fun r hr => Frame.lt_of_leastRows_le (f := f) (by omega) hr, by omega, by omega⟩

/-- A pending correction within MARK_MAX_STEP that leaves T within the rows of R52 is not clamped. -/
theorem corrClamped_of_within {pending : Int} (hdown : -(p.run.markMaxStep : Int) ≤ pending)
    (hup : pending ≤ p.run.markMaxStep)
    (htop : frameSpan p.static f.residue + pending < ((p.static.frameRows : Int) + 1) * 65536)
    (hrow : f.leastRows * 65536 ≤ frameSpan p.static f.residue + pending) : corrClamped p pending f = pending := by
  refine corrClamped_eq_pending ?_ ?_
  · rw [corrLo_eq]
    omega
  · unfold corrHi
    omega

/-! ### The next boundary and the exact start (R50, R51) -/

/-- With S the exact start of a frame, the next boundary is that of the exact start S + L + c: a floor of the same sum. -/
theorem nextBoundary_exact {pending exact : Int} {origin : Count} (h3 : check3 p = true) (h4 : check4 p = true)
    (hres : f.residue ≤ 65535) (hhi : ∀ r, f.hi = some r → r < p.static.frameRows)
    (hstart : f.start = origin + BitVec.ofInt 32 (p.static.phases * ((exact + p.static.roundBias) / 65536)))
    (hresidue : (f.residue : Int) = (exact + p.static.roundBias) % 65536) :
    let b := nextBoundary p pending f
    let next := exact + p.static.repeatLen + b.correction
    b.start = origin + BitVec.ofInt 32 (p.static.phases * ((next + p.static.roundBias) / 65536))
      ∧ (b.residue : Int) = (next + p.static.roundBias) % 65536 := by
  intro b next
  have hsum : next + p.static.roundBias
      = boundarySum p pending f + 65536 * ((exact + p.static.roundBias) / 65536) := by
    show exact + p.static.repeatLen + corrClamped p pending f + _ = _
    unfold boundarySum frameSpan
    omega
  have hn := provisionalRows_eq pending h3 h4 hres hhi
  refine ⟨?_, ?_⟩
  · have hrows : (p.static.phases : Int) * ((next + p.static.roundBias) / 65536)
        = p.static.phases * ((exact + p.static.roundBias) / 65536)
          + ((provisionalRows p pending f * p.static.phases : Nat) : Int) := by
      rw [hsum, Int.add_mul_ediv_left _ _ (by decide), ← hn]
      push_cast
      ring
    show f.start + BitVec.ofNat 32 _ = _
    rw [hrows, BitVec.ofInt_add, BitVec.ofInt_natCast, ← BitVec.add_assoc, hstart]
  · show ((boundarySum p pending f % 65536).toNat : Int) = _
    rw [hsum]
    omega

end

/-- Settles O24: the bounds of R52 keep the sum of R53 within its rows, and the floor splits at the exact start. -/
theorem rowCountsAndBoundaries : Obligations.RowCountsAndBoundaries := by
  refine ⟨fun p pending f h3 h4 hres hhi => ?_, fun p pending f origin exact h3 h4 hres hhi hstart hresidue => ?_⟩
  · intro c n t span row lo hi
    obtain ⟨habove, height, htop⟩ := provisionalRows_bounds pending h3 h4 hres hhi
    have hdown : -(p.run.markMaxStep : Int) ≤ corrLo p f := Int.le_max_left _ _
    refine ⟨rfl, provisionalRows_eq pending h3 h4 hres hhi, habove, height, htop,
      Int.le_trans hdown (corrClamped_mem p pending f).1, fun hd hu ht hone hrow => ?_⟩
    refine corrClamped_of_within hd hu ht ?_
    show f.leastRows * 65536 ≤ t
    unfold Frame.leastRows
    cases hf : f.hi with
    | none => exact hone
    | some h => exact hrow h hf
  · obtain ⟨hb, hr⟩ := nextBoundary_exact (pending := pending) h3 h4 hres hhi hstart hresidue
    exact ⟨rfl, hb, hr, decide_eq_true_iff⟩

/-! ### The origin mark (R47, R48, R60) -/

/-- The mark row and the residue of MARK origin mode: the residue is below one row, and together they stand for MARK_OFFSET
behind a start of exactly 0. -/
theorem markOrigin_spec {p : StaticPlan} (h : p.roundBias ≤ 65535) :
    (markOrigin p).2 ≤ 65535
      ∧ ((markOrigin p).1 = p.markOffset / 65536 ∨ (markOrigin p).1 = p.markOffset / 65536 + 1)
      ∧ (markOrigin p).1 * 65536 + p.roundBias = p.markOffset + (markOrigin p).2 := by
  unfold markOrigin
  dsimp only
  split
  · dsimp only; omega
  · dsimp only; omega

/-- Settles O25: the mark row and the residue as `markOrigin_spec` says, and the candidate by its three conditions. -/
theorem markOriginHasNoError : Obligations.MarkOriginHasNoError := by
  intro p n enc mark hbias row residue
  obtain ⟨hresidue, hrow, hsum⟩ := markOrigin_spec hbias
  refine ⟨?_, hresidue, hrow, candidate_mark⟩
  show ((markOrigin p.static).1 : Int) * 65536 - _ = 0
  omega

end Sys2Proof.Machine
end

section
/-! What the operations do to the extents of the open frames and to the next boundary (R44, R50, R58, R67, R68): what the two
invariants read of a frame, and the operations that at most take frames off the oldest end (`Sheds`). -/

namespace Sys2Proof.Machine

/-! ### What the invariants read of the open frames -/

/-- What the chain of open frames reads of one of them (R67, R68). -/
structure FrameLink where
  number : Count
  start  : Count
  rows   : Nat
  fixed  : Bool

/-- What the two invariants read of an open frame (R58, R67, R68). -/
structure FrameShape where
  link    : FrameLink
  residue : Nat
  hi      : Option Nat

def Frame.link (f : Frame) : FrameLink := { number := f.number, start := f.start, rows := f.rows, fixed := f.fixed }

def Frame.shape (f : Frame) : FrameShape := { link := f.link, residue := f.residue, hi := f.hi }

/-- The start and the number of what comes right after a frame (R50, R68). -/
def FrameLink.endsAt (phases : Nat) (number start : Count) (l : FrameLink) : Prop :=
  number = l.number + 1 ∧ start = l.start + BitVec.ofNat 32 (l.rows * phases)

/-- A frame with a fixed row count is followed by another in the chain. -/
def FrameLink.before (phases : Nat) (l l' : FrameLink) : Prop := l.endsAt phases l'.number l'.start ∧ l.fixed = true

theorem chained_iff (phases : Nat) (fs : List Frame) :
    chained phases fs ↔ (fs.map Frame.link).IsChain (FrameLink.before phases) := by
  fun_induction chained phases fs with
  | case1 => exact iff_of_true trivial .nil
  | case2 => exact iff_of_true trivial (.singleton _)
  | case3 f g rest ih =>
    rw [List.map_cons] at ih
    rw [List.map_cons, List.map_cons, List.isChain_cons_cons, ← ih]
    unfold FrameLink.before FrameLink.endsAt
    tauto

/-- At most four frames, in a chain that ends at the next boundary. -/
def LinksOk (phases : Nat) (links : List FrameLink) (next : Option Boundary) : Prop :=
  links.length ≤ 4 ∧ links.IsChain (FrameLink.before phases)
    ∧ ∀ l, links.getLast? = some l → ∃ b, next = some b ∧ l.endsAt phases b.frame b.start

/-- The chain of open frames of a state: `ChainInv` without the invariant of capture. -/
def ChainOf (s : State) : Prop :=
  LinksOk s.livePlan.static.phases (s.table.openFrames.map Frame.link) s.reg.next

theorem chainInv_iff (s : State) : ChainInv s ↔ CaptureInv s ∧ ChainOf s := by
  unfold ChainInv ChainOf LinksOk
  rw [chained_iff, List.length_map, List.getLast?_map]
  cases s.table.openFrames.getLast? with
  | none => simp
  | some f =>
    simp only [Option.map_some, Option.some.injEq, forall_eq']
    rfl

/-- The rows of the open frames of a state: `RowsInv` without the invariant of capture. -/
def RowsOf (s : State) : Prop :=
  (∀ p, s.plan.live = some p → check3 p = true ∧ check4 p = true ∧ p.static.roundBias ≤ 65535)
    ∧ (∀ b, s.reg.next = some b → b.residue ≤ 65535)
    ∧ ∀ f ∈ s.table.openFrames, f.rowsOk s.livePlan.static.frameRows

theorem rowsInv_iff (s : State) : RowsInv s ↔ CaptureInv s ∧ RowsOf s := Iff.rfl

theorem rowsOk_of_shape {f g : Frame} {h : Nat} (e : g.shape = f.shape) (hf : f.rowsOk h) : g.rowsOk h := by
  have hlink : g.rows = f.rows := congrArg (fun x => x.link.rows) e
  have hresidue : g.residue = f.residue := congrArg FrameShape.residue e
  have hhi : g.hi = f.hi := congrArg FrameShape.hi e
  unfold Frame.rowsOk at hf ⊢
  rwa [hlink, hresidue, hhi]

/-! ### Operations that only take frames off the oldest end -/

/-- The plan and the origin stay; the frames left open are the youngest, with their extents; and the next boundary stays, or,
with no frame left, is at most fixed. -/
structure Sheds (s t : State) : Prop where
  live   : t.plan.live = s.plan.live := by rfl
  origin : t.reg.origin = s.reg.origin := by rfl
  frames : t.table.openFrames.map Frame.shape <:+ s.table.openFrames.map Frame.shape := by exact List.suffix_rfl
  next   : t.reg.next = s.reg.next
      ∨ (t.table.openFrames = [] ∧ t.reg.next = s.reg.next.map fun b => { b with fixed := true }) := by
    exact .inl (Eq.refl _)

theorem Sheds.rfl {s : State} : Sheds s s := {}

theorem Sheds.closed {s t : State} (h : Sheds s t) (hs : s.table.openFrames = []) : t.table.openFrames = [] := by
  have := h.frames
  rw [hs] at this
  exact List.map_eq_nil_iff.mp (List.suffix_nil.mp this)

theorem Sheds.trans {s t u : State} (h : Sheds s t) (k : Sheds t u) : Sheds s u where
  live := k.live.trans h.live
  origin := k.origin.trans h.origin
  frames := k.frames.trans h.frames
  next := by
    rcases h.next with hn | ⟨ho, hn⟩
    · rw [← hn]
      exact k.next
    · refine .inr ⟨k.closed ho, ?_⟩
      rcases k.next with kn | ⟨-, kn⟩
      · exact kn.trans hn
      · rw [kn, hn, Option.map_map]
        exact congrArg (Option.map · _) (funext fun _ => Eq.refl _)

theorem Sheds.ite {s t u : State} {c : Prop} [Decidable c] (ht : Sheds s t) (hu : Sheds s u) :
    Sheds s (if c then t else u) := by
  split
  · exact ht
  · exact hu

theorem Sheds.livePlan {s t : State} (h : Sheds s t) : t.livePlan = s.livePlan := by
  unfold State.livePlan; rw [h.live]

theorem Sheds.length_le {s t : State} (h : Sheds s t) : t.table.openFrames.length ≤ s.table.openFrames.length := by
  simpa using h.frames.length_le

theorem Sheds.links {s t : State} (h : Sheds s t) :
    t.table.openFrames.map Frame.link <:+ s.table.openFrames.map Frame.link := by
  have := h.frames.map FrameShape.link
  rwa [List.map_map, List.map_map] at this

/-- The newest frame stays the newest, as long as a frame is left. -/
theorem Sheds.newest {s t : State} (h : Sheds s t) {l : FrameLink}
    (hl : (t.table.openFrames.map Frame.link).getLast? = some l) :
    (s.table.openFrames.map Frame.link).getLast? = some l ∧ t.reg.next = s.reg.next := by
  obtain ⟨pre, hpre⟩ := h.links
  refine ⟨by rw [← hpre, List.getLast?_append, hl]; exact Eq.refl _, h.next.resolve_right fun ⟨hn, _⟩ => ?_⟩
  rw [hn] at hl
  cases hl

theorem Sheds.chain {s t : State} (h : Sheds s t) (hs : ChainOf s) : ChainOf t := by
  obtain ⟨hlen, hchain, hnext⟩ := hs
  refine ⟨Nat.le_trans h.links.length_le hlen, ?_, fun l hl => ?_⟩
  · rw [h.livePlan]
    exact hchain.suffix h.links
  · obtain ⟨hl', hn⟩ := h.newest hl
    rw [h.livePlan, hn]
    exact hnext l hl'

theorem Sheds.rows {s t : State} (h : Sheds s t) (hs : RowsOf s) : RowsOf t := by
  obtain ⟨hplan, hnext, hframes⟩ := hs
  refine ⟨h.live ▸ hplan, fun b hb => ?_, fun f hf => ?_⟩
  · rcases h.next with hn | ⟨-, hn⟩
    · exact hnext b (hn ▸ hb)
    · rw [hn, Option.map_eq_some_iff] at hb
      obtain ⟨b', hb', rfl⟩ := hb
      exact hnext b' hb'
  · obtain ⟨g, hg, e⟩ := List.mem_map.mp (h.frames.subset (List.mem_map_of_mem hf))
    rw [h.livePlan]
    exact rowsOk_of_shape e.symm (hframes g hg)

/-- A change of the open frames that changes none of their extents. -/
theorem map_shape_eq {f : Frame → Frame} (hf : ∀ g, (f g).shape = g.shape) (fs : List Frame) :
    (fs.map f).map Frame.shape = fs.map Frame.shape := by
  rw [List.map_map]
  exact List.map_congr_left fun g _ => hf g

/-! ### Flags and shared operations -/

theorem raise_sheds (k : Fin 52) (d : LatchDetail) (s : State) : Sheds s (raise k d s) := {}
theorem answer_sheds (tag : Byte) (r : ResultWord) (s : State) : Sheds s (answer tag r s) := {}
theorem handNotice_sheds (d : DeviceState) (c : NoticeCause) (s : State) : Sheds s (handNotice d c s) := {}
theorem onLane_sheds (n : Lane) (f : LaneTracker → LaneTracker) (s : State) : Sheds s (onLane n f s) := {}
theorem setContext_sheds (n : Lane) (c : LineContext) (s : State) : Sheds s (setContext n c s) := {}
theorem setSlot_sheds (k : Fin 32) (st : SlotState) (s : State) : Sheds s (setSlot k st s) := {}
theorem setCorrection_sheds (c : Int) (s : State) : Sheds s (setCorrection c s) := {}

theorem onFrame_sheds (number : Count) {f : Frame → Frame} (s : State) (hf : ∀ g, (f g).shape = g.shape) :
    Sheds s (onFrame number f s) := by
  refine { frames := ?_ }
  have hmap := map_shape_eq (f := fun g => if g.number = number then f g else g)
    (fun g => by split; exacts [hf g, Eq.refl _]) s.table.openFrames
  exact hmap ▸ List.suffix_rfl

theorem cutLine_sheds (n : Lane) (s : State) : Sheds s (cutLine n s) := by
  unfold cutLine
  split
  · exact onFrame_sheds _ s fun _ => rfl
  · exact .rfl

theorem laneOff_sheds (n : Lane) (s : State) : Sheds s (laneOff n s) := (cutLine_sheds n s).trans (onLane_sheds n _ _)

theorem foldl_sheds {α : Type} (f : State → α → State) (hf : ∀ s a, Sheds s (f s a)) (l : List α) (s : State) :
    Sheds s (l.foldl f s) := by
  induction l generalizing s with
  | nil => exact .rfl
  | cons a l ih => exact (hf s a).trans (ih _)

theorem lanesOff_sheds (s : State) : Sheds s (lanesOff s) := foldl_sheds _ (fun s n => laneOff_sheds n s) _ s

/-! ### Seals (R109 to R118, R177) -/

theorem enqueueSealed_sheds (c : SealCause) (f : Frame) (s : State) : Sheds s (enqueueSealed c f s) := by
  unfold enqueueSealed
  split <;> exact {}

theorem sealFrame_sheds (c : SealCause) {f : Frame} {rest : List Frame} {s : State}
    (h : s.table.openFrames = f :: rest) : Sheds s (sealFrame c f rest s) := by
  obtain ⟨ls, he⟩ := sealFrame_eq c f rest s
  rw [he]
  have hdrop : Sheds s (withoutOldest f rest ls s) :=
    { frames := h ▸ List.suffix_cons (Frame.shape f) (rest.map Frame.shape) }
  exact hdrop.trans (enqueueSealed_sheds c _ _)

/-- The seal takes the oldest frame; it fixes the next boundary when that frame is also the newest (R115 to R117). -/
theorem sealOldest_sheds (c : SealCause) (s : State) : Sheds s (sealOldest c s) := by
  cases h : s.table.openFrames with
  | nil => rw [sealOldest_nil c h]; exact .rfl
  | cons f rest =>
    cases rest with
    | cons g rest =>
      have hfix : fixIfOnly s = s := by unfold fixIfOnly; rw [h]
      have hseal : sealOldest c s = sealFrame c f (g :: rest) s := by
        unfold sealOldest; rw [hfix]; dsimp only; rw [h]
      rw [hseal]
      exact sealFrame_sheds c h
    | nil =>
      have hfix : fixIfOnly s = fixNewest s := by unfold fixIfOnly; rw [h]
      have hnewest := fixNewest_newest (s := s) (older := []) (a := f) h
      generalize hu : fixNewest s = u at hfix hnewest
      have hseal : sealOldest c s = sealFrame c { f with fixed := true } [] u := by
        unfold sealOldest; rw [hfix, hnewest]; rfl
      have hopen : (sealOldest c s).table.openFrames = [] := sealOldest_length c h
      have hsheds : Sheds u (sealFrame c { f with fixed := true } [] u) := sealFrame_sheds c (by rw [hnewest]; rfl)
      rw [← hseal] at hsheds
      have hlive : u.plan.live = s.plan.live := by rw [hnewest]
      refine { live := hsheds.live.trans hlive, origin := hsheds.origin.trans ?_, frames := ?_, next := ?_ }
      · rw [hnewest]
        dsimp only
        split <;> rfl
      · rw [hopen]
        exact List.nil_suffix
      · have hunext : (sealOldest c s).reg.next = u.reg.next
            ∨ (sealOldest c s).reg.next = u.reg.next.map fun b => { b with fixed := true } :=
          hsheds.next.imp id And.right
        rw [hnewest] at hunext
        cases hf : f.fixed with
        | true =>
          rw [hf] at hunext
          exact hunext.imp id fun e => ⟨hopen, e⟩
        | false =>
          rw [hf] at hunext
          refine .inr ⟨hopen, ?_⟩
          rcases hunext with e | e
          · exact e
          · rw [e]
            show Option.map _ (Option.map _ s.reg.next) = _
            rw [Option.map_map]
            rfl

theorem singleEnd_sheds (s : State) : Sheds s (singleEnd s) := by
  have hcapture (c : Capture) : Sheds s { s with capture := c } := {}
  exact .ite ((hcapture _).trans (lanesOff_sheds _)) .rfl

theorem loadSealTimer_sheds (s : State) : Sheds s (loadSealTimer s) := by
  obtain ⟨t, h⟩ := loadSealTimer_cases s
  rw [h]
  exact {}

theorem timerOnEndSeen_sheds (before : Bool) (s : State) : Sheds s (timerOnEndSeen before s) := by
  obtain ⟨t, h⟩ := timerOnEndSeen_cases before s
  rw [h]
  exact {}

theorem sealAndTurn_sheds (c : SealCause) (s : State) : Sheds s (sealAndTurn c s) :=
  (sealOldest_sheds c s).trans ((singleEnd_sheds _).trans (loadSealTimer_sheds _))

theorem cascade_sheds (fuel : Nat) (s : State) : Sheds s (cascade fuel s) := by
  induction fuel generalizing s with
  | zero => exact .rfl
  | succ k ih => exact .ite ((sealAndTurn_sheds _ s).trans (ih _)) .rfl

theorem evalSealTest_sheds (s : State) : Sheds s (evalSealTest s) := cascade_sheds _ s

theorem sealWithCascade_sheds (c : SealCause) (s : State) : Sheds s (sealWithCascade c s) :=
  (sealAndTurn_sheds c s).trans (evalSealTest_sheds _)

theorem sealEach_sheds (c : SealCause) (fuel : Nat) (s : State) : Sheds s (sealEach c fuel s) := by
  induction fuel generalizing s with
  | zero => exact .rfl
  | succ k ih => exact (sealOldest_sheds c s).trans (ih _)

theorem sealAll_sheds (c : SealCause) (s : State) : Sheds s (sealAll c s) := sealEach_sheds c _ s

/-! ### The Patch Engine, drains and the Report Unit -/

theorem takeUpEach_sheds (fuel : Nat) (s : State) : Sheds s (takeUpEach fuel s) := by
  induction fuel generalizing s with
  | zero => exact .rfl
  | succ k ih =>
    have hfinish (e : SlotEntry) : Sheds s (finishPatch e.slot s) := {}
    unfold takeUpEach
    split
    · exact .rfl
    · split
      · exact .rfl
      · split
        · exact {}
        · exact (hfinish _).trans (ih _)

theorem advancePatch_sheds (w : PatchWork) (s : State) : Sheds s (advancePatch w s) := by
  unfold advancePatch
  split <;> exact {}

theorem answerStop_sheds (s : State) : Sheds s (answerStop s) := by
  unfold answerStop
  split
  · exact {}
  · exact .rfl

theorem drainTest_sheds (s : State) : Sheds s (drainTest s) := by
  have hstop : Sheds s { s with capture := { s.capture with device := .stopped, drainCause := .none } } := {}
  refine .ite ?_ .rfl
  unfold completeDrain
  dsimp only
  split
  · exact hstop.trans ((handNotice_sheds _ _ _).trans (answerStop_sheds _))
  · exact hstop.trans (handNotice_sheds _ _ _)
  · exact hstop

theorem settle_sheds (s : State) : Sheds s (settle s) := (takeUpEach_sheds _ s).trans (drainTest_sheds _)

theorem present_sheds (s : State) : Sheds s (present s) := by
  rw [(present_chosen s).only]
  exact {}

end Sys2Proof.Machine
end

section
/-! What the Registration Unit and the Frame Table do to the chain of open frames and to their rows (R50 to R57, R71, R72, R77,
R80): the operations that recompute N, fix it, place a line or open a frame. -/

namespace Sys2Proof.Machine

/-! ### Both invariants across an operation -/

/-- The chain of open frames and their rows, if they are as they should be before, are so after. -/
structure Extends (s t : State) : Prop where
  chain : ChainOf s → ChainOf t
  rows  : RowsOf s → RowsOf t

theorem Extends.rfl {s : State} : Extends s s := ⟨id, id⟩

theorem Extends.trans {s t u : State} (h : Extends s t) (k : Extends t u) : Extends s u :=
  ⟨k.chain ∘ h.chain, k.rows ∘ h.rows⟩

theorem Extends.ite {s t u : State} {c : Prop} [Decidable c] (ht : Extends s t) (hu : Extends s u) :
    Extends s (if c then t else u) := by
  split
  · exact ht
  · exact hu

theorem Sheds.extends {s t : State} (h : Sheds s t) : Extends s t := ⟨h.chain, h.rows⟩

/-- With no frame open there is no chain to keep. -/
theorem chainOf_closed {s : State} (h : s.table.openFrames = []) : ChainOf s := by
  unfold ChainOf
  rw [h]
  exact ⟨Nat.zero_le _, .nil, nofun⟩

/-! ### The newest frame and the next boundary -/

/-- The newest frame of a chain may change its row count, when the next boundary follows. -/
theorem LinksOk.renew {phases : Nat} {ls : List FrameLink} {l l' : FrameLink} {next : Option Boundary} {b : Boundary}
    (h : LinksOk phases (ls ++ [l]) next) (hnumber : l'.number = l.number) (hstart : l'.start = l.start)
    (hb : l'.endsAt phases b.frame b.start) : LinksOk phases (ls ++ [l']) (some b) := by
  obtain ⟨hlen, hchain, -⟩ := h
  obtain ⟨hls, -, hlast⟩ := List.isChain_append.mp hchain
  refine ⟨by simpa using hlen, hls.append (.singleton _) fun x hx y hy => ?_, fun x hx => ⟨b, rfl, ?_⟩⟩
  · cases hy
    have := hlast x hx l rfl
    unfold FrameLink.before FrameLink.endsAt at this ⊢
    rwa [hnumber, hstart]
  · rw [List.getLast?_append] at hx
    cases hx
    exact hb

/-- A frame that starts at the next boundary joins the chain, when the newest frame's row count is fixed. -/
theorem LinksOk.extend {phases : Nat} {ls : List FrameLink} {l : FrameLink} {next b : Boundary}
    (h : LinksOk phases ls (some next)) (hlen : ls.length < 4) (hfixed : ∀ x, ls.getLast? = some x → x.fixed = true)
    (hnumber : l.number = next.frame) (hstart : l.start = next.start) (hb : l.endsAt phases b.frame b.start) :
    LinksOk phases (ls ++ [l]) (some b) := by
  obtain ⟨-, hchain, hnext⟩ := h
  refine ⟨by simpa using hlen, hchain.append (.singleton _) fun x hx y hy => ?_, fun x hx => ⟨b, rfl, ?_⟩⟩
  · cases hy
    obtain ⟨b', hb', he⟩ := hnext x hx
    cases hb'
    exact ⟨by rw [hnumber, hstart]; exact he, hfixed x hx⟩
  · rw [List.getLast?_append] at hx
    cases hx
    exact hb

/-- The next boundary is where the newest frame ends with its provisional row count (R50, R53). -/
theorem nextBoundary_endsAt (p : Plan) (pending : Int) (f : Frame) :
    ({ f with rows := provisionalRows p pending f } : Frame).link.endsAt p.static.phases
      (nextBoundary p pending f).frame (nextBoundary p pending f).start := ⟨rfl, rfl⟩

theorem nextBoundary_residue (p : Plan) (pending : Int) (f : Frame) : (nextBoundary p pending f).residue ≤ 65535 := by
  show (boundarySum p pending f % 65536).toNat ≤ 65535
  omega

theorem recompute_chain {s : State} (h : ChainOf s) : ChainOf (recompute s) := by
  rcases recompute_cases s with e | ⟨older, f, ho, -, e⟩
  · rwa [e]
  · unfold ChainOf at h
    rw [ho, List.map_append] at h
    rw [e]
    unfold ChainOf
    dsimp only
    rw [List.map_append]
    exact h.renew rfl rfl (nextBoundary_endsAt _ _ f)

theorem fixNewest_chain {s : State} (h : ChainOf s) : ChainOf (fixNewest s) := by
  rcases fixNewest_cases s with e | ⟨older, f, ho, -, e⟩
  · rwa [e]
  · unfold ChainOf at h
    rw [ho, List.map_append] at h
    have hok := h
    obtain ⟨-, -, hlast⟩ := h
    obtain ⟨b, hb, hend⟩ := hlast f.link (by rw [List.getLast?_append]; rfl)
    rw [e]
    unfold ChainOf
    dsimp only
    rw [List.map_append, hb]
    exact hok.renew rfl rfl hend

/-! ### The rows of the newest frame (R54, R58) -/

/-- What a frame's N is computed from: a residue below one row, and every accepted row below FRAME_ROWS. -/
def Frame.rowsSoon (h : Nat) (f : Frame) : Prop := f.residue ≤ 65535 ∧ ∀ r, f.hi = some r → r < h

theorem Frame.rowsOk.soon {f : Frame} {h : Nat} (hf : f.rowsOk h) : f.rowsSoon h := by
  obtain ⟨hres, -, hrows, hhi⟩ := hf
  exact ⟨hres, fun r hr => Nat.lt_of_lt_of_le (hhi r hr) hrows⟩

/-- The checks that the row counts rest on. -/
def Plan.rowChecks (p : Plan) : Prop := check3 p = true ∧ check4 p = true ∧ p.static.roundBias ≤ 65535

theorem RowsOf.rowChecks {s : State} (h : RowsOf s) (hlive : s.plan.live ≠ none) : s.livePlan.rowChecks := by
  obtain ⟨p, hp⟩ := Option.ne_none_iff_exists'.mp hlive
  unfold State.livePlan
  rw [hp]
  exact h.1 p hp

/-- The plan of zeros has no row for an open frame. -/
theorem RowsOf.live_of_mem {s : State} (h : RowsOf s) {f : Frame} (hf : f ∈ s.table.openFrames) : s.plan.live ≠ none := by
  intro hnone
  obtain ⟨-, -, hframes⟩ := h
  obtain ⟨-, hlow, hup, -⟩ := hframes f hf
  have hblank : s.livePlan.static.frameRows = 0 := by unfold State.livePlan; rw [hnone]; rfl
  omega

/-- A recomputation gives the newest frame an N as R58 says. -/
theorem recompute_rows_of_soon {s : State} {older : List Frame} {f : Frame} (ho : s.table.openFrames = older ++ [f])
    (hplan : ∀ p, s.plan.live = some p → p.rowChecks) (hlive : s.plan.live ≠ none)
    (hnext : ∀ b, s.reg.next = some b → b.residue ≤ 65535) (holder : ∀ g ∈ older, g.rowsOk s.livePlan.static.frameRows)
    (hfixed : f.fixed = true → f.rowsOk s.livePlan.static.frameRows) (hf : f.rowsSoon s.livePlan.static.frameRows) :
    RowsOf (recompute s) := by
  obtain ⟨p, hp⟩ := Option.ne_none_iff_exists'.mp hlive
  have hpl : s.livePlan = p := by unfold State.livePlan; rw [hp]; rfl
  rw [recompute_newest ho]
  split
  next hfix =>
    refine ⟨hplan, hnext, fun g hg => ?_⟩
    rw [ho, List.mem_append, List.mem_singleton] at hg
    rcases hg with hg | rfl
    · exact holder g hg
    · exact hfixed hfix
  next =>
    obtain ⟨h3, h4, -⟩ := hplan p hp
    obtain ⟨hres, hhi⟩ := hf
    rw [hpl] at hhi
    obtain ⟨habove, height, htop⟩ := provisionalRows_bounds s.reg.correction h3 h4 hres hhi
    refine ⟨hplan, fun b hb => ?_, fun g hg => ?_⟩
    · cases hb
      exact nextBoundary_residue _ _ _
    · rw [List.mem_append, List.mem_singleton] at hg
      rcases hg with hg | rfl
      · exact holder g hg
      · show Frame.rowsOk s.livePlan.static.frameRows _
        rw [hpl]
        exact ⟨hres, height, htop, habove⟩

theorem recompute_rows {s : State} (h : RowsOf s) : RowsOf (recompute s) := by
  rcases recompute_cases s with e | ⟨older, f, ho, -, -⟩
  · rwa [e]
  · have hmem : f ∈ s.table.openFrames := by rw [ho]; exact List.mem_append_right _ (List.mem_singleton_self f)
    have hlive := h.live_of_mem hmem
    obtain ⟨hplan, hnext, hframes⟩ := h
    have hf := hframes f hmem
    refine recompute_rows_of_soon ho hplan hlive hnext (fun g hg => hframes g ?_) (fun _ => hf) hf.soon
    rw [ho]
    exact List.mem_append_left _ hg

theorem recompute_extends (s : State) : Extends s (recompute s) := ⟨recompute_chain, recompute_rows⟩

theorem fixNewest_extends (s : State) : Extends s (fixNewest s) := by
  refine ⟨fixNewest_chain, fun h => ?_⟩
  rcases fixNewest_cases s with e | ⟨older, f, ho, -, e⟩
  · rwa [e]
  · obtain ⟨hplan, hnext, hframes⟩ := h
    rw [ho] at hframes
    rw [e]
    refine ⟨hplan, fun b hb => ?_, fun g hg => ?_⟩
    · obtain ⟨b', hb', rfl⟩ := Option.map_eq_some_iff.mp hb
      exact hnext b' hb'
    · rcases List.mem_append.mp hg with hg | hg
      · exact hframes g (List.mem_append_left _ hg)
      · rw [List.mem_singleton.mp hg]
        exact hframes f (List.mem_append_right _ (List.mem_singleton_self f))

/-! ### Marks (R59 to R61) -/

theorem takeMark_extends (frame : Count) (e : Int) (s : State) : Extends s (takeMark frame e s) := by
  have hreg (r : Registration) (u : State) (hn : r.next = u.reg.next) (ho : r.origin = u.reg.origin) :
      Sheds u { u with reg := r } := { origin := ho, next := .inl hn }
  have hmark : Sheds s (onFrame frame (fun f => { f with markTaken := true }) s) := onFrame_sheds _ s fun _ => rfl
  rw [takeMark_eq]
  refine Extends.trans (Sheds.extends ?_) (recompute_extends _)
  exact hmark.trans (hreg _ _ rfl rfl)

theorem evaluateMark_extends (n : Lane) (mark : Bool) (frame : Count) (row : Nat) (s : State) :
    Extends s (evaluateMark n mark frame row s) := by
  unfold evaluateMark
  split
  · exact .rfl
  · exact .ite (.ite (raise_sheds _ _ s).extends (takeMark_extends _ _ s)) .rfl

/-! ### The records that a line changes (R80, R81) -/

theorem Frame.recordUpTo_shape (n : Lane) (stop : Nat) (f : Frame) : (f.recordUpTo n stop).shape = f.shape := by
  obtain ⟨m, rs, o, h⟩ := Frame.recordUpTo_eq n stop f
  have := h f.damaged f.fixed
  rw [show ({ f with damaged := f.damaged, fixed := f.fixed } : Frame) = f from rfl] at this
  rw [this]
  rfl

theorem Frame.passBy_shape (p : StaticPlan) (n : Lane) (f : Frame) : (f.passBy p n).shape = f.shape := by
  unfold Frame.passBy
  split
  · rfl
  · exact Frame.recordUpTo_shape n (f.extent p) f

theorem Frame.passBy_link (p : StaticPlan) (n : Lane) (f : Frame) : (f.passBy p n).link = f.link :=
  congrArg FrameShape.link (f.passBy_shape p n)

/-- A line raises the highest row of its frame, and changes nothing else of its extent. -/
theorem Frame.deliver_shape (p : StaticPlan) (n : Lane) (q : Nat) (time : Count) (f : Frame) :
    (f.deliver p n q time).shape
      = { f.shape with hi := some (match f.hi with | none => q / p.phases | some h => max h (q / p.phases)) } := by
  have h := Frame.recordUpTo_shape n q f
  have hhi : (f.recordUpTo n q).hi = f.hi := congrArg FrameShape.hi h
  have hres : (f.recordUpTo n q).residue = f.residue := congrArg FrameShape.residue h
  have hlink : (f.recordUpTo n q).link = f.link := congrArg FrameShape.link h
  have e : (f.deliver p n q time).shape = { (f.recordUpTo n q).shape with
      hi := (match (f.recordUpTo n q).hi with
        | none => some (q / p.phases) | some h => some (max h (q / p.phases))) } := rfl
  rw [e, h, hhi]
  cases f.hi <;> rfl

theorem Frame.deliver_link (p : StaticPlan) (n : Lane) (q : Nat) (time : Count) (f : Frame) :
    (f.deliver p n q time).link = f.link :=
  congrArg FrameShape.link (f.deliver_shape p n q time)

theorem updateAt_map {α : Type} {g h : Frame → Frame} {k : Frame → α} (hg : ∀ f, k (g f) = k f)
    (hh : ∀ f, k (h f) = k f) (i : Nat) (l : List Frame) : (updateAt g h i l).map k = l.map k := by
  fun_induction updateAt g h i l with
  | case1 => rfl
  | case2 f rest => rw [List.map_cons, List.map_cons, hh]
  | case3 i f rest ih => rw [List.map_cons, List.map_cons, hg, ih]

/-- The records of a placed line's frames, before N follows. -/
def delivered (n : Lane) (i q : Nat) (time : Count) (s : State) : State :=
  { s with table := { s.table with
      openFrames := updateAt (Frame.passBy s.livePlan.static n) (Frame.deliver s.livePlan.static n q time) i
        s.table.openFrames } }

theorem placeLine_delivered (n : Lane) (i q : Nat) (time : Count) (s : State) :
    placeLine n i q time s = timerOnEndSeen (oldestEndSeen s.table)
      (if (s.table.openFrames[i]?).any (fun f => raisesHi (q / s.livePlan.static.phases) f.hi)
          && decide (i + 1 = s.table.openFrames.length)
        then recompute (delivered n i q time s) else delivered n i q time s) := rfl

theorem placeLine_chain (n : Lane) (i q : Nat) (time : Count) {s : State} (h : ChainOf s) :
    ChainOf (placeLine n i q time s) := by
  have hd : ChainOf (delivered n i q time s) := by
    unfold ChainOf delivered
    dsimp only
    rw [updateAt_map (Frame.passBy_link _ n) (Frame.deliver_link _ n q time)]
    exact h
  rw [placeLine_delivered]
  refine (timerOnEndSeen_sheds _ _).chain ?_
  split
  · exact recompute_chain hd
  · exact hd

/-- A line whose row is not above the highest so far, or that lies below N, keeps a frame's rows as R58 says. -/
theorem Frame.deliver_rowsOk {p : StaticPlan} {n : Lane} {q h : Nat} {time : Count} {f : Frame} (hf : f.rowsOk h)
    (hq : q / p.phases < f.rows) : (f.deliver p n q time).rowsOk h := by
  have hs := f.deliver_shape p n q time
  have hrows : (f.deliver p n q time).rows = f.rows := congrArg (fun x => x.link.rows) hs
  have hres : (f.deliver p n q time).residue = f.residue := congrArg FrameShape.residue hs
  have hhi : (f.deliver p n q time).hi = _ := congrArg FrameShape.hi hs
  obtain ⟨h1, h2, h3, h4⟩ := hf
  refine ⟨hres ▸ h1, hrows ▸ h2, hrows ▸ h3, fun r hr => ?_⟩
  rw [hhi] at hr
  rw [hrows]
  cases hf : f.hi with
  | none => rw [hf] at hr; cases hr; exact hq
  | some k => rw [hf] at hr; cases hr; exact Nat.max_lt.mpr ⟨h4 k hf, hq⟩

theorem Frame.deliver_rowsSoon {p : StaticPlan} {n : Lane} {q h : Nat} {time : Count} {f : Frame} (hf : f.rowsSoon h)
    (hq : q / p.phases < h) : (f.deliver p n q time).rowsSoon h := by
  have hs := f.deliver_shape p n q time
  have hres : (f.deliver p n q time).residue = f.residue := congrArg FrameShape.residue hs
  have hhi : (f.deliver p n q time).hi = _ := congrArg FrameShape.hi hs
  obtain ⟨h1, h2⟩ := hf
  refine ⟨hres ▸ h1, fun r hr => ?_⟩
  rw [hhi] at hr
  cases hf : f.hi with
  | none => rw [hf] at hr; cases hr; exact hq
  | some k => rw [hf] at hr; cases hr; exact Nat.max_lt.mpr ⟨h2 k hf, hq⟩

/-- A line placed in a row of its frame, or, in the newest frame with a provisional N, in a row below FRAME_ROWS, leaves the
rows as R58 says. -/
theorem placeLine_rows (n : Lane) {q : Nat} (time : Count) {s : State} {older younger : List Frame} {f : Frame}
    (ho : s.table.openFrames = older ++ f :: younger)
    (hfits : q / s.livePlan.static.phases < f.rows
      ∨ (younger = [] ∧ f.fixed = false ∧ q / s.livePlan.static.phases < s.livePlan.static.frameRows))
    (h : RowsOf s) : RowsOf (placeLine n older.length q time s) := by
  have hlive : s.plan.live ≠ none :=
    h.live_of_mem (f := f) (by rw [ho]; exact List.mem_append_right _ List.mem_cons_self)
  obtain ⟨hplan, hnext, hframes⟩ := h
  have hf : f.rowsOk s.livePlan.static.frameRows :=
    hframes f (by rw [ho]; exact List.mem_append_right _ List.mem_cons_self)
  have ⟨_, _, htop, hhi⟩ := hf
  have hsoon : q / s.livePlan.static.phases < s.livePlan.static.frameRows := by
    rcases hfits with hq | ⟨-, -, hq⟩
    · exact Nat.lt_of_lt_of_le hq htop
    · exact hq
  have holder : ∀ g ∈ older.map (Frame.passBy s.livePlan.static n), g.rowsOk s.livePlan.static.frameRows := by
    intro g hg
    obtain ⟨a, ha, rfl⟩ := List.mem_map.mp hg
    exact rowsOk_of_shape (a.passBy_shape _ n) (hframes a (by rw [ho]; exact List.mem_append_left _ ha))
  have hd : (delivered n older.length q time s).table.openFrames = older.map (Frame.passBy s.livePlan.static n)
      ++ f.deliver s.livePlan.static n q time :: younger := by
    unfold delivered
    dsimp only
    rw [ho, updateAt_append]
  have hget : s.table.openFrames[older.length]? = some f := by
    rw [ho, List.getElem?_append_right (Nat.le_refl _), Nat.sub_self]
    rfl
  rw [placeLine_delivered, hget, Option.any_some]
  refine (timerOnEndSeen_sheds _ _).rows ?_
  split
  next hrec =>
    -- The highest row of the newest frame rises: N follows it, or is fixed above it.
    obtain rfl : younger = [] := by
      rw [Bool.and_eq_true, decide_eq_true_eq, ho, List.length_append, List.length_cons] at hrec
      exact List.length_eq_zero_iff.mp (by omega)
    refine recompute_rows_of_soon hd hplan hlive hnext holder (fun hfix => ?_) (Frame.deliver_rowsSoon hf.soon hsoon)
    refine Frame.deliver_rowsOk hf (hfits.resolve_right ?_)
    rintro ⟨-, hprov, -⟩
    have hfixed : (f.deliver s.livePlan.static n q time).fixed = f.fixed := congrArg FrameLink.fixed
      (f.deliver_link s.livePlan.static n q time)
    rw [hfixed, hprov] at hfix
    cases hfix
  next hrec =>
    refine ⟨hplan, hnext, fun g hg => ?_⟩
    rw [hd, List.mem_append, List.mem_cons] at hg
    rcases hg with hg | rfl | hg
    · exact holder g hg
    · refine Frame.deliver_rowsOk hf (hfits.elim id ?_)
      rintro ⟨rfl, -, -⟩
      rw [ho, List.length_append, List.length_singleton, decide_eq_true (Eq.refl _), Bool.and_true, raisesHi_iff] at hrec
      obtain ⟨k, hk, hle⟩ : ∃ k, f.hi = some k ∧ ¬k < q / s.livePlan.static.phases := by simpa using hrec
      exact Nat.lt_of_le_of_lt (Nat.le_of_not_lt hle) (hhi k hk)
    · exact hframes g (by rw [ho]; exact List.mem_append_right _ (List.mem_cons_of_mem _ hg))

theorem placeInOpen_extends (n : Lane) {i q : Nat} (time : Count) {s : State}
    (hq : ∀ f, s.table.openFrames[i]? = some f → q < f.rows * s.livePlan.static.phases) :
    Extends s (placeInOpen n i q time s).2 := by
  unfold placeInOpen
  split
  · exact .rfl
  next f hf =>
    split
    · exact .rfl
    · split
      · exact .rfl
      · refine ⟨placeLine_chain n i q time, fun h => ?_⟩
        obtain ⟨hi, rfl⟩ := List.getElem?_eq_some_iff.mp hf
        have ho : s.table.openFrames = s.table.openFrames.take i
            ++ s.table.openFrames[i] :: s.table.openFrames.drop (i + 1) := by
          rw [List.getElem_cons_drop, List.take_append_drop]
        have hlen : (s.table.openFrames.take i).length = i := List.length_take_of_le (Nat.le_of_lt hi)
        have := placeLine_rows n time ho (.inl (Nat.div_lt_of_lt_mul (Nat.mul_comm _ _ ▸ hq _ hf))) h
        rwa [hlen] at this

/-! ### A frame opens (R55, R72, R77) -/

/-- The frame that opens, with the next boundary at its end, behind what the FORCED seal before it left. -/
theorem openFrame_behind {b : Boundary} {s u : State} (hu : forceSeal (setCorrection 0 s) = u) :
    let slot := findFreeSlot u.livePlan.static.slots u.table
    openFrame b s = { u with
      table := { u.table with
        openFrames := u.table.openFrames
          ++ [{ newFrame b slot with rows := provisionalRows u.livePlan u.reg.correction (newFrame b slot) }]
        slots := slotsOpened u.table.slots slot
        lastAllocated := lastOpened u.table.lastAllocated slot }
      reg := { u.reg with next := some (nextBoundary u.livePlan u.reg.correction (newFrame b slot)) }
      report := u.report.opened b.frame slot } := by
  intro slot
  have hslot : findFreeSlot u.livePlan.static.slots u.table = slot := rfl
  unfold openFrame
  rw [hu]
  unfold allocateSlot
  dsimp only
  rw [hslot]
  cases slot with
  | none => exact (recompute_newest rfl).trans (if_neg Bool.false_ne_true)
  | some k => exact (recompute_newest rfl).trans (if_neg Bool.false_ne_true)

/-- A frame opens behind those that the seals before it left, with the next boundary at its end. -/
theorem openFrame_cases (b : Boundary) (s : State) :
    ∃ v slot, Sheds s v ∧ (s.table.openFrames.length ≤ 4 → v.table.openFrames.length < 4)
      ∧ openFrame b s = { v with
          table := { v.table with openFrames := v.table.openFrames
            ++ [{ newFrame b slot with rows := provisionalRows v.livePlan v.reg.correction (newFrame b slot) }] }
          reg := { v.reg with next := some (nextBoundary v.livePlan v.reg.correction (newFrame b slot)) } } := by
  generalize hu : forceSeal (setCorrection 0 s) = u
  have hsheds : Sheds s u := by
    rw [← hu]
    exact (setCorrection_sheds 0 s).trans (.ite (sealWithCascade_sheds _ _) .rfl)
  have hroom : s.table.openFrames.length ≤ 4 → u.table.openFrames.length < 4 := by
    intro hlen
    rw [← hu]
    unfold forceSeal
    split
    next hfull =>
      obtain ⟨f, rest, hcons⟩ : ∃ f rest, (setCorrection 0 s).table.openFrames = f :: rest := by
        cases ho : (setCorrection 0 s).table.openFrames with
        | nil => rw [ho] at hfull; exact absurd hfull (by decide)
        | cons f rest => exact ⟨f, rest, rfl⟩
      have hrest : (sealOldest .fifth (setCorrection 0 s)).table.openFrames = rest := sealOldest_length _ hcons
      have hturn := ((singleEnd_sheds (sealOldest .fifth (setCorrection 0 s))).trans
        ((loadSealTimer_sheds _).trans (evalSealTest_sheds _))).length_le
      rw [hrest] at hturn
      have hlen' : rest.length + 1 ≤ 4 := by
        have : (setCorrection 0 s).table.openFrames.length ≤ 4 := hlen
        rwa [hcons] at this
      exact Nat.lt_of_le_of_lt hturn hlen'
    next hfew => exact Nat.not_le.mp hfew
  have hslot (sl : Vector SlotState 32) (last : Option (Fin 32)) (r : ReportUnit) : Sheds u { u with
      table := { u.table with slots := sl, lastAllocated := last }, report := r } := {}
  have hopen := openFrame_behind (b := b) hu
  generalize findFreeSlot u.livePlan.static.slots u.table = slot at hopen
  exact ⟨_, slot, hsheds.trans (hslot (slotsOpened u.table.slots slot) (lastOpened u.table.lastAllocated slot)
    (u.report.opened b.frame slot)), hroom, hopen⟩

/-- The frame that opens joins the chain: none is open, or it starts at the next boundary behind a fixed frame. -/
theorem openFrame_chain {b : Boundary} {s : State}
    (hb : s.table.openFrames = [] ∨ ((∃ b', s.reg.next = some b' ∧ b'.frame = b.frame ∧ b'.start = b.start)
      ∧ ∀ l, (s.table.openFrames.map Frame.link).getLast? = some l → l.fixed = true)) (h : ChainOf s) :
    ChainOf (openFrame b s) := by
  obtain ⟨v, slot, hsheds, hroom, e⟩ := openFrame_cases b s
  have hv := hsheds.chain h
  have hlen : (v.table.openFrames.map Frame.link).length < 4 := by
    rw [List.length_map]
    exact hroom (by simpa using h.1)
  rw [e]
  unfold ChainOf
  dsimp only
  rw [List.map_append]
  have hend := nextBoundary_endsAt v.livePlan v.reg.correction (newFrame b slot)
  cases hv' : v.table.openFrames with
  | nil => exact ⟨Nat.le_of_ble_eq_true rfl, .singleton _, fun l hl => by cases hl; exact ⟨_, rfl, hend⟩⟩
  | cons f rest =>
    rw [← hv']
    rcases hb with hb | ⟨⟨b', hb, hframe, hstart⟩, hfixed⟩
    · rw [hsheds.closed hb] at hv'
      cases hv'
    · have hnext : v.reg.next = some b' := by
        refine (hsheds.next.resolve_right fun hx => ?_).trans hb
        rw [hx.1] at hv'
        cases hv'
      unfold ChainOf at hv
      rw [hnext] at hv
      exact hv.extend hlen (fun x hx => hfixed x (hsheds.newest hx).1) hframe.symm hstart.symm hend

/-- The frame that opens has an N as R58 says, from the residue of its start. -/
theorem openFrame_rows {b : Boundary} {s : State} (hlive : s.plan.live ≠ none) (hb : b.residue ≤ 65535) (h : RowsOf s) :
    RowsOf (openFrame b s) := by
  obtain ⟨v, slot, hsheds, -, e⟩ := openFrame_cases b s
  obtain ⟨hplan, hnext, hframes⟩ := hsheds.rows h
  have hv : v.plan.live ≠ none := by rw [hsheds.live]; exact hlive
  have hsoon : (newFrame b slot).rowsSoon v.livePlan.static.frameRows := ⟨hb, nofun⟩
  have hre := (recompute_newest (s := { v with
      table := { v.table with openFrames := v.table.openFrames ++ [newFrame b slot] } }) rfl).trans (if_neg Bool.false_ne_true)
  rw [e.trans hre.symm]
  exact recompute_rows_of_soon rfl hplan hv hnext hframes nofun hsoon

/-- The newest frame, once a frame has opened, is that frame: its N is provisional. -/
theorem openFrame_newest (b : Boundary) (s : State) :
    ∃ older f, (openFrame b s).table.openFrames = older ++ [f] ∧ f.fixed = false
      ∧ (s.table.openFrames = [] → older = []) := by
  obtain ⟨v, slot, hsheds, -, e⟩ := openFrame_cases b s
  exact ⟨_, _, by rw [e], rfl, hsheds.closed⟩

theorem openFrame_livePlan (b : Boundary) (s : State) : (openFrame b s).livePlan = s.livePlan :=
  (openFrame_inner b s).livePlan

/-- A line in the frame that has just opened, in a row below FRAME_ROWS. -/
theorem placeLine_newest_rows (n : Lane) {i q : Nat} (time : Count) {s : State} {older : List Frame} {f : Frame}
    (ho : s.table.openFrames = older ++ [f]) (hi : i = older.length) (hf : f.fixed = false)
    (hq : q / s.livePlan.static.phases < s.livePlan.static.frameRows) (h : RowsOf s) : RowsOf (placeLine n i q time s) := by
  subst hi
  exact placeLine_rows n time ho (.inr ⟨rfl, hf, hq⟩) h

/-- The boundary at which a line opens the next frame is that of the fixed newest frame. -/
theorem fixNewest_boundary {b : Boundary} {s : State} (hb : s.reg.next = some b) :
    (∃ b', (fixNewest s).reg.next = some b' ∧ b'.frame = b.frame ∧ b'.start = b.start)
      ∧ ∀ l, ((fixNewest s).table.openFrames.map Frame.link).getLast? = some l → l.fixed = true := by
  rcases List.eq_nil_or_concat s.table.openFrames with ho | ⟨older, a, ho⟩
  · have hnone : fixNewest s = s := by unfold fixNewest; rw [ho]; rfl
    rw [hnone, ho]
    exact ⟨⟨b, hb, rfl, rfl⟩, nofun⟩
  · rw [List.concat_eq_append] at ho
    rw [fixNewest_newest ho]
    constructor
    · dsimp only
      split
      · exact ⟨b, hb, rfl, rfl⟩
      · exact ⟨{ b with fixed := true }, by rw [hb]; rfl, rfl, rfl⟩
    · intro l hl
      dsimp only at hl
      rw [List.map_append, List.getLast?_append] at hl
      cases hl
      rfl

/-- A frame that has not yet opened has at most FRAME_ROWS rows (R50, R58). -/
theorem unopenedRows_le {p : Plan} (h3 : check3 p = true) {residue : Nat} (hr : residue ≤ 65535) :
    unopenedRows p.static residue ≤ p.static.frameRows := by
  have := check3_bounds h3
  unfold unopenedRows
  omega

/-- The next frame opens for a line that lies in it (R72). -/
theorem openAndPlace_extends (n : Lane) {b : Boundary} {q : Nat} (time : Count) {s : State} (hlive : s.plan.live ≠ none)
    (hb : s.reg.next = some b) (hq : q < unopenedRows s.livePlan.static b.residue * s.livePlan.static.phases) :
    Extends s (openAndPlace n b q time s).2 := by
  have hopen := openFrame_livePlan b (fixNewest s)
  have hfixlive : (fixNewest s).livePlan = s.livePlan := (fixNewest_inner s).livePlan
  refine ⟨fun h => placeLine_chain n _ q time (openFrame_chain (.inr (fixNewest_boundary hb)) (fixNewest_chain h)),
    fun h => ?_⟩
  obtain ⟨older, f, ho, hf, -⟩ := openFrame_newest b (fixNewest s)
  have hchecks := (h.rowChecks hlive).1
  have hrows := (fixNewest_extends s).rows h
  obtain ⟨-, hnext, -⟩ := h
  have hres := hnext b hb
  refine placeLine_newest_rows n time ho ?_ hf ?_ (openFrame_rows ?_ hres hrows)
  · rw [ho, List.length_append, List.length_singleton, Nat.add_sub_cancel]
  · rw [hopen, hfixlive]
    exact Nat.lt_of_lt_of_le (Nat.div_lt_of_lt_mul (Nat.mul_comm _ _ ▸ hq)) (unopenedRows_le hchecks hres)
  · rw [(fixNewest_inner s).live]
    exact hlive

end Sys2Proof.Machine
end

section
/-! The handing on of a line and COMMIT keep the chain of open frames and their rows (R32, R33, R45 to R49, R69 to R75,
R165). -/

namespace Sys2Proof.Machine

/-! ### Attribution (R69 to R75) -/

/-- The open frame that holds a distance holds the relative position that R71 gives. -/
theorem locate_mem {p : StaticPlan} {fs : List Frame} {d : Nat} {r : Nat × Nat} (h : locate p fs d = some r) :
    ∃ f, fs[r.1]? = some f ∧ r.2 < f.extent p := by
  fun_induction locate p fs d generalizing r with
  | case1 => cases h
  | case2 f rest d hd => cases h; exact ⟨f, rfl, hd⟩
  | case3 f rest d hd ih =>
    obtain ⟨r', hr', rfl⟩ := Option.map_eq_some_iff.mp h
    exact ih hr'

theorem attributeContinuous_extends (n : Lane) (line : Line) {s : State} (hlive : s.plan.live ≠ none) :
    Extends s (attributeContinuous n line s).2 := by
  unfold attributeContinuous
  split
  · exact .rfl
  next b hb =>
    dsimp only
    split
    · exact .rfl
    · split
      · split
        · exact .rfl
        next r hr =>
          obtain ⟨f, hf, hq⟩ := locate_mem hr
          exact placeInOpen_extends n line.time fun g hg => by rw [hf] at hg; cases hg; exact hq
      · split
        · exact openAndPlace_extends n line.time hlive hb (by omega)
        · exact .rfl

/-- A line beyond frame 0 in SINGLE mode fixes N and closes a cursor (R57, R75). -/
theorem passSingle_extends (n : Lane) (s : State) : Extends s (passSingle n s) := by
  have hpass (u : State) : Sheds u { u with table := { u.table with
      openFrames := u.table.openFrames.map fun f => { f.passBy u.livePlan.static n with endSeen := true } } } :=
    { frames := map_shape_eq (f := fun f => { f.passBy u.livePlan.static n with endSeen := true })
        (fun f => f.passBy_shape u.livePlan.static n) u.table.openFrames ▸ List.suffix_rfl }
  exact (fixNewest_extends s).trans ((hpass _).trans (timerOnEndSeen_sheds _ _)).extends

theorem attributeSingle_extends (n : Lane) (line : Line) (s : State) : Extends s (attributeSingle n line s).2 := by
  unfold attributeSingle
  split
  · exact .rfl
  next f rest ho =>
    dsimp only
    split
    · exact .rfl
    · split
      · exact passSingle_extends n s
      next hd hin =>
        refine placeInOpen_extends n line.time fun g hg => ?_
        rw [ho] at hg
        cases hg
        unfold beyondSingle Frame.extent at hin
        rw [decide_eq_true_eq] at hin
        omega

theorem attributeLine_extends (n : Lane) (line : Line) {s : State} (hlive : s.plan.live ≠ none) :
    Extends s (attributeLine n line s).2 := by
  unfold attributeLine
  split
  · exact attributeContinuous_extends n line hlive
  · exact attributeSingle_extends n line s

/-! ### The origin (R45 to R49) -/

/-- A candidate that qualifies lies in a row below FRAME_ROWS, and leaves a residue below one row. -/
theorem candidate_bounds {p : Plan} (hp : p.rowChecks) {mode : OriginMode} {n : Lane} {enc : Count} {mark : Bool}
    {q residue : Nat} (h : candidate p mode n enc mark = some (q, residue)) :
    q / p.static.phases < p.static.frameRows ∧ residue ≤ 65535 := by
  obtain ⟨h3, h4, hbias⟩ := hp
  obtain ⟨-, hlow, hup⟩ := check3_bounds h3
  -- A position below one row more than `row` rows, when a row has any position at all.
  have hrow (row : Nat) (hr : row < p.static.frameRows) :
      (originPhase p.static enc + row * p.static.phases) / p.static.phases < p.static.frameRows := by
    rcases Nat.eq_zero_or_pos p.static.phases with h0 | hpos
    · rw [h0, Nat.div_zero]
      exact Nat.zero_lt_of_lt hr
    · rwa [Nat.add_mul_div_right _ _ hpos, originPhase,
        Nat.div_eq_of_lt (Nat.mod_lt _ hpos), Nat.zero_add]
  cases mode with
  | free =>
    cases h
    have := hrow 0 (by omega)
    rw [Nat.zero_mul] at this
    exact ⟨this, hbias⟩
  | mark =>
    obtain ⟨hresidue, hwhole, -⟩ := markOrigin_spec hbias
    obtain ⟨hoffset, -⟩ := check4_bounds h4
    unfold candidate at h
    dsimp only at h
    split at h
    next hc =>
      cases h
      have hne : (markOrigin p.static).1 ≠ p.static.frameRows := by
        rw [Bool.and_eq_true, decide_eq_true_eq] at hc
        exact hc.2
      exact ⟨hrow _ (by omega), hresidue⟩
    · cases h

theorem setOrigin_extends (n : Lane) (line : Line) {q residue : Nat} {s : State} (hlive : s.plan.live ≠ none)
    (hopen : s.table.openFrames = [])
    (hc : s.livePlan.rowChecks → q / s.livePlan.static.phases < s.livePlan.static.frameRows ∧ residue ≤ 65535) :
    Extends s (setOrigin n line q residue s) := by
  let b := originBoundary (line.pos - BitVec.ofNat 32 q) residue
  let u : State := { s with reg := { s.reg with origin := some (line.pos - BitVec.ofNat 32 q) } }
  have hmark (v : State) : Sheds v (match v.reg.mode with
      | .free => v
      | .mark => onFrame 0 (fun f => { f with markTaken := true }) v) := by
    split
    · exact .rfl
    · exact onFrame_sheds 0 v fun _ => rfl
  have hrun (v : State) :
      Sheds v (handNotice .running .origin { v with capture := { v.capture with device := .running } }) := {}
  obtain ⟨older, f, ho, hf, hnil⟩ := openFrame_newest b u
  have hplan : (openFrame b u).livePlan = s.livePlan := openFrame_livePlan b u
  refine ⟨fun _ => (hmark _).chain (placeLine_chain n 0 q line.time ((hrun _).chain ?_)), fun h => (hmark _).rows ?_⟩
  · exact openFrame_chain (.inl hopen) (chainOf_closed hopen)
  · obtain ⟨hq, hres⟩ := hc (h.rowChecks hlive)
    refine placeLine_newest_rows n line.time (older := older) ho ?_ hf ?_
      ((hrun _).rows (openFrame_rows (b := b) (s := u) hlive hres h))
    · rw [hnil hopen]
      rfl
    · rw [(hrun _).livePlan, hplan]
      exact hq

/-! ### An accepted line (R32, R33) -/

theorem takeLine_sheds (n : Lane) (x : LineExtent) (frame : Count) (q : Nat) (s : State) : Sheds s (takeLine n x frame q s) :=
  setContext_sheds n _ s

theorem runLine_extends (n : Lane) (line : Line) (x : LineExtent) {s : State} (hlive : s.plan.live ≠ none) :
    Extends s (runLine n line x s) := by
  have hline := attributeLine_extends n line hlive
  unfold runLine
  dsimp only
  generalize attributeLine n line s = r at hline
  refine hline.trans ?_
  have hdiscard (u : State) : Sheds u (setContext n (.discarding x) u) := setContext_sheds n _ u
  split
  next i frame q _ =>
    have htake := takeLine_sheds n x frame q r.2
    exact (htake.trans (.ite .rfl (evalSealTest_sheds _))).extends.trans (evaluateMark_extends _ _ _ _ _)
  · exact (hdiscard r.2).extends
  · exact ((hdiscard r.2).trans (evalSealTest_sheds _)).extends
  · exact ((hdiscard r.2).trans (raise_sheds _ _ _)).extends
  · have hlost := (raise_sheds (laneLatch n .lockLost) (.lockLost .ahead line.seq line.pos line.gSeq line.gPos) r.2).trans
      (onLane_sheds n (LaneTracker.lockLostAhead r.2.livePlan.static.lanes[n]) _)
    exact (hlost.trans ((hdiscard _).trans (evalSealTest_sheds _))).extends

theorem armLine_extends (n : Lane) (line : Line) (x : LineExtent) {s : State} (hlive : s.plan.live ≠ none)
    (hopen : s.table.openFrames = []) : Extends s (armLine n line x s) := by
  unfold armLine
  split
  · exact (setContext_sheds n _ s).extends
  next q residue hc =>
    have htake := (setOrigin_extends n line hlive hopen (candidate_bounds · hc)).trans (takeLine_sheds n x 0 q _).extends
    dsimp only
    split
    · exact htake.trans (evaluateMark_extends _ _ _ _ _)
    · exact htake

theorem CaptureInv.live_ne {s : State} (h : CaptureInv s) (hd : s.capture.device ≠ .dormant) : s.plan.live ≠ none := by
  rwa [Ne, h.1]

/-- No frame is open in DORMANT, STOPPED and ARMED (R68). -/
theorem CaptureInv.closed {s : State} (h : CaptureInv s) (hd : s.capture.device.closed = true) : s.table.openFrames = [] := by
  obtain ⟨-, hclosed, -⟩ := h
  exact hclosed hd

theorem handOn_extends (n : Lane) (line : Line) (x : LineExtent) {s : State} (h : CaptureInv s) :
    Extends s (handOn n line x s) := by
  have hdiscard : Extends s (setContext n (.discarding x) s) := (setContext_sheds n _ s).extends
  unfold handOn
  split
  next hd => exact armLine_extends n line x (h.live_ne (by rw [hd]; exact nofun)) (h.closed (by rw [hd]; rfl))
  next hd => exact runLine_extends n line x (h.live_ne (by rw [hd]; exact nofun))
  · exact hdiscard
  · exact hdiscard
  · exact hdiscard

/-! ### Lane Trackers (R22 to R25) -/

theorem raiseLock_sheds (n : Lane) (r : LockResult) (s : State) : Sheds s (raiseLock n r s) := by
  unfold raiseLock
  split
  · exact .rfl
  · exact raise_sheds _ _ s

theorem lockAndPlace_extends (n : Lane) (t : LineTag) (x : LineExtent) {s : State} (hon : s.lanes[n].state ≠ .off)
    (h : CaptureInv s) : Extends s (lockAndPlace n t x s) := by
  unfold lockAndPlace
  dsimp only
  generalize lockRule s.livePlan.static.lanes[n] t.seq (t.enc - s.livePlan.static.lanes[n].delay) s.lanes[n] = r
  have hlock : Sheds s (raiseLock n r (onLane n (fun _ => r.lane) s)) := (onLane_sheds n _ s).trans (raiseLock_sheds n r _)
  have hkept : Kept s (raiseLock n r (onLane n (fun _ => r.lane) s)) :=
    (onLane_kept n _ s fun _ => hon).trans (raiseLock_kept n r _)
  split
  · exact hlock.extends.trans (handOn_extends n _ x (hkept.captureInv h))
  · have hdiscard := hlock.trans (setContext_sheds n (.discarding x) _)
    exact (Sheds.ite (hdiscard.trans (evalSealTest_sheds _)) hdiscard).extends

theorem malformedBurst_sheds (n : Lane) (addr off code slot : Nat) (bytes : List Byte) (s : State) :
    Sheds s (malformedBurst n addr off code slot bytes s).1 := (raise_sheds _ _ s).trans (setContext_sheds _ _ _)

theorem beginLine_extends (n : Lane) (addr off : Nat) (fired : Option InjectionKind) (bytes : List Byte) {s : State}
    (hon : s.lanes[n].state ≠ .off) (h : CaptureInv s) : Extends s (beginLine n addr off fired bytes s).1 := by
  unfold beginLine
  dsimp only
  have hcut : (cutLine n s).lanes = s.lanes := by
    obtain ⟨fs, hfs, -⟩ := cutLine_frames n s
    rw [hfs]
  have hbegin := (cutLine_sheds n s).trans (onLane_sheds n (fun l => { l with setAside := none, context := .none }) _)
  have hkept : Kept s (onLane n (fun l => { l with setAside := none, context := .none }) (cutLine n s)) :=
    (cutLine_kept n s).trans (onLane_kept n _ _ id)
  split
  · exact (hbegin.trans (malformedBurst_sheds _ _ _ _ _ _ _)).extends
  · refine hbegin.extends.trans (Extends.trans ?_ (setContext_sheds _ _ _).extends)
    refine lockAndPlace_extends _ _ _ ?_ (hkept.captureInv h)
    rw [Fin.getElem_fin, onLane_same, hcut]
    exact hon

theorem startLine_extends (n : Lane) (addr off : Nat) (tag : Byte) (bytes : List Byte) {s : State}
    (hon : s.lanes[n].state ≠ .off) (h : CaptureInv s) : Extends s (startLine n addr off tag bytes s).1 := by
  unfold startLine
  dsimp only
  have hcount := onLane_sheds n (fun l => { l with injection := (countDown s.lanes[n].injection).2 }) s
  have hkept : Kept s (onLane n (fun l => { l with injection := (countDown s.lanes[n].injection).2 }) s) :=
    onLane_kept n _ s id
  split
  · dsimp only
    exact (hcount.trans (onLane_sheds n _ _)).extends
  · exact (hcount.trans ((onLane_sheds n _ _).trans (raise_sheds _ _ _))).extends
  · refine hcount.extends.trans (beginLine_extends _ _ _ _ _ ?_ (hkept.captureInv h))
    rw [Fin.getElem_fin, onLane_same]
    exact hon

theorem continueLine_sheds (n : Lane) (addr off : Nat) (bytes : List Byte) (s : State) :
    Sheds s (continueLine n addr off bytes s).1 := by
  unfold continueLine
  dsimp only
  have fault (code slot : Nat) : Sheds s (continuationFault n addr off code slot bytes s).1 :=
    (cutLine_sheds n s).trans (malformedBurst_sheds _ _ _ _ _ _ _)
  have inPlace : Sheds s (burstInPlace n bytes s).1 := setContext_sheds _ _ s
  split
  · exact fault _ _
  iterate 2
    · repeat' split
      · exact fault _ _
      · exact fault _ _
      · exact inPlace
  · repeat' split
    · exact fault _ _
    · exact fault _ _
    · exact .rfl
  · exact .rfl

theorem continueBurst_sheds (n : Lane) (addr off : Nat) (tag : Byte) (bytes : List Byte) (s : State) :
    Sheds s (continueBurst n addr off tag bytes s).1 := by
  unfold continueBurst
  dsimp only
  split
  · exact continueLine_sheds _ _ _ _ s
  · split
    · split
      · exact raise_sheds _ _ s
      · exact .rfl
    · exact continueLine_sheds _ _ _ _ s

theorem landingBurst_extends (n : Lane) (addr off : Nat) (tag : Byte) (data : List Byte) {s : State} (h : CaptureInv s) :
    Extends s (landingBurst n addr off tag data s).1 := by
  unfold landingBurst
  dsimp only
  split
  · exact .rfl
  · split
    · split
      · exact startLine_extends _ _ _ _ _ ‹_› h
      · exact (continueBurst_sheds _ _ _ _ _ s).extends
    · exact (raise_sheds _ _ s).extends

/-! ### COMMIT (R161 to R165, R179) -/

theorem Memory.field_lt (m : Memory) (width off : Nat) : m.field width off < 256 ^ width := by
  induction width generalizing off with
  | zero => exact Nat.one_pos
  | succ k ih =>
    have := ih (off + 1)
    have := (m.read off).isLt
    unfold Memory.field
    rw [Nat.pow_succ]
    omega

/-- ROUND_BIAS is a field of two bytes (R185). -/
theorem readPlan_roundBias (m : Memory) : (readPlan m).static.roundBias ≤ 65535 :=
  Nat.le_of_lt_succ (m.field_lt 2 0x06)

theorem firstFailing_none {n : Nat} {oks : List Bool} (h : firstFailing n oks = none) : ∀ ok ∈ oks, ok = true := by
  fun_induction firstFailing n oks with
  | case1 => exact nofun
  | case2 n rest ih => exact List.forall_mem_cons.mpr ⟨rfl, ih h⟩
  | case3 => cases h

/-- A plan whose checks all pass is one that the row counts can rest on. -/
theorem rowChecks_of_passed {p : Plan} {s : State} (h : failedCheck s p = none) (hbias : p.static.roundBias ≤ 65535) :
    p.rowChecks := by
  have hall := firstFailing_none h
  exact ⟨hall _ (by simp [planChecks]), hall _ (by simp [planChecks]), hbias⟩

/-- A plan is taken with the static fields unchanged, or with no frame open. -/
theorem installPlan_extends {new : Plan} {s : State} (hnew : new.rowChecks)
    (hsame : new.static = s.livePlan.static ∨ s.table.openFrames = []) : Extends s (installPlan new s) := by
  refine ⟨fun h => ?_, fun h => ?_⟩
  · rcases hsame with hsame | hopen
    · unfold ChainOf at h ⊢
      rw [← hsame] at h
      exact h
    · exact chainOf_closed hopen
  · obtain ⟨-, hnext, hframes⟩ := h
    refine ⟨fun p hp => by cases hp; exact hnew, hnext, fun f hf => ?_⟩
    rcases hsame with hsame | hopen
    · rw [← hsame] at hframes
      exact hframes f hf
    · have : (installPlan new s).table.openFrames = [] := hopen
      rw [this] at hf
      cases hf

theorem enableLane_sheds (old new : Plan) (n : Lane) (s : State) : Sheds s (enableLane old new n s) :=
  .ite (onLane_sheds n _ s) (.ite (laneOff_sheds n s) .rfl)

theorem applyLaneEnable_sheds (old new : Plan) (s : State) : Sheds s (applyLaneEnable old new s) := by
  have hfold := foldl_sheds _ (fun s n => enableLane_sheds old new n s) allLanes s
  exact .ite (.ite (hfold.trans (evalSealTest_sheds _)) hfold) .rfl

theorem takePlan_extends {old new : Plan} {s : State} (hnew : new.rowChecks)
    (hsame : new.static = s.livePlan.static ∨ s.table.openFrames = []) : Extends s (takePlan old new s) := by
  have hplanes (u : State) : Sheds u (applyPlanes old new u) := .ite .rfl {}
  have hring (u : State) : Sheds u (applyRing old new u) := .ite .rfl {}
  have hstep (u : State) : Extends u (applyMaxStep old new u) :=
    .ite .rfl ((setCorrection_sheds _ u).extends.trans (recompute_extends _))
  have hthreshold (u : State) : Sheds u (applyThreshold old new u) := .ite .rfl {}
  exact (installPlan_extends hnew hsame).trans (((hplanes _).trans (hring _)).extends.trans ((hstep _).trans
    ((applyLaneEnable_sheds old new _).trans ((hthreshold _).trans (settle_sheds _))).extends))

/-- COMMIT is not taken in DRAINING (R162). -/
theorem commitPlan_extends {p : Plan} {s : State} (hbias : p.static.roundBias ≤ 65535) (hd : s.capture.device ≠ .draining)
    (h : CaptureInv s) : Extends s (commitPlan p s).1 := by
  unfold commitPlan
  split
  next hnone =>
    split
    · exact .rfl
    next hpass =>
      have hopen : s.table.openFrames = [] := h.closed (by rw [h.1.mp hnone]; rfl)
      have hinstall := installPlan_extends (rowChecks_of_passed hpass hbias) (.inr hopen)
      have hstop : Sheds (installPlan p s) (takeFirstPlan p s) := {}
      exact hinstall.trans hstop.extends
  next old hold =>
    split
    · exact .rfl
    next hrunning =>
      split
      · exact .rfl
      next hpass =>
        split
        · exact .rfl
        · refine takePlan_extends (rowChecks_of_passed hpass hbias) ?_
          have hplan : s.livePlan = old := by unfold State.livePlan; rw [hold]; rfl
          by_cases hsame : p.static = old.static
          · exact .inl (hplan ▸ hsame)
          · refine .inr (h.closed ?_)
            cases hs : s.capture.device with
            | dormant => rfl
            | stopped => rfl
            | armed => rfl
            | running => exact absurd ⟨.inr hs, hsame⟩ hrunning
            | draining => exact absurd hs hd

end Sys2Proof.Machine
end

section
/-! Every step keeps the chain of open frames and their rows (R50, R58, R67, R68). -/

namespace Sys2Proof.Machine

/-! ### The invariant of capture, and with it the chain and the rows -/

/-- An operation that keeps the invariant of capture, and from a state that meets it keeps the chain of open frames and
their rows. -/
structure Carries (s t : State) : Prop where
  preserves : Preserves s t
  carried   : CaptureInv s → Extends s t

theorem Carries.trans {s t u : State} (h : Carries s t) (k : Carries t u) : Carries s u :=
  ⟨h.preserves.trans k.preserves, fun hs => (h.carried hs).trans (k.carried (h.preserves.capture hs))⟩

theorem Carries.ite {s t u : State} {c : Prop} [Decidable c] (ht : c → Carries s t) (hu : ¬c → Carries s u) :
    Carries s (if c then t else u) := by
  split
  · exact ht ‹_›
  · exact hu ‹_›

theorem Sheds.carries {s t : State} (h : Sheds s t) (k : Preserves s t) : Carries s t := ⟨k, fun _ => h.extends⟩

theorem Carries.rfl {s : State} : Carries s s := Sheds.rfl.carries .rfl

theorem answer_carries (tag : Byte) (r : ResultWord) (s : State) : Carries s (answer tag r s) :=
  (answer_sheds tag r s).carries (answer_kept tag r s).preserves

theorem present_carries (s : State) : Carries s (present s) := (present_sheds s).carries (present_kept s).preserves

theorem settle_carries (s : State) : Carries s (settle s) := (settle_sheds s).carries (settle_preserves s)

/-! ### The commands (R158) -/

/-- A START is taken with no frame open (R171, R173). -/
theorem beginCapture_extends (mode : CaptureMode) (origin : OriginMode) {s : State} (hopen : s.table.openFrames = []) :
    Extends s (beginCapture mode origin s) :=
  ⟨fun _ => chainOf_closed hopen, fun ⟨hplan, _, hframes⟩ => ⟨hplan, nofun, hframes⟩⟩

theorem beginDrain_sheds (tag : Byte) (s : State) : Sheds s (beginDrain tag s) := by
  have hbegin : Sheds s { s with
      capture := { s.capture with device := .draining, drainCause := .stop }
      plan := { s.plan with pendingCommand := some (.stop tag) } } := {}
  unfold beginDrain
  exact hbegin.trans ((lanesOff_sheds _).trans ((sealAll_sheds _ _).trans (settle_sheds _)))

theorem emptyInjections_sheds (s : State) : Sheds s (emptyInjections s) := {}

theorem abortCapture_sheds (s : State) : Sheds s (abortCapture s) := by
  have habandon (u : State) : Sheds u (abandonPatching u) := by unfold abandonPatching; exact {}
  have hstop (u : State) : Sheds u (handNotice .stopped .abort
      { u with capture := { u.capture with device := .stopped, drainCause := .none } }) := {}
  unfold abortCapture
  exact (lanesOff_sheds s).trans ((emptyInjections_sheds _).trans ((sealAll_sheds _ _).trans ((habandon _).trans (hstop _))))

/-- The commands other than COMMIT and START at most seal frames. -/
theorem perform_sheds {c : MailCommand} (x : TakenCommand) (s : State) (hcommit : c ≠ .commit) (hstart : c ≠ .start) :
    Sheds s (perform c x s).1 := by
  cases c with
  | commit => exact absurd rfl hcommit
  | start => exact absurd rfl hstart
  | stop =>
    show Sheds s (doStop x.tag s).1
    unfold doStop
    split
    · exact .rfl
    · dsimp only
      exact beginDrain_sheds _ s
  | abort =>
    show Sheds s (doAbort s).1
    unfold doAbort
    split
    · dsimp only
      exact emptyInjections_sheds s
    · dsimp only
      exact abortCapture_sheds s
  | flush =>
    show Sheds s (doFlush s).1
    unfold doFlush
    split
    · exact .rfl
    · dsimp only
      exact (sealWithCascade_sheds _ s).trans (settle_sheds _)
  | release =>
    show Sheds s (doRelease x.arg0 s).1
    unfold doRelease
    dsimp only
    split
    · split
      · exact setSlot_sheds _ _ s
      · exact .rfl
    · exact .rfl
  | snapshot =>
    show Sheds s (doSnapshot x.tag s).1
    unfold doSnapshot
    exact {}
  | clearErrors =>
    show Sheds s (doClearErrors s).1
    unfold doClearErrors
    split
    · exact {}
    · exact .rfl
  | inject =>
    show Sheds s (doInject x.arg0 x.arg1 x.arg2 s).1
    unfold doInject
    dsimp only
    split
    · split
      · exact .rfl
      · split
        · exact .rfl
        · dsimp only
          exact onLane_sheds _ _ s
    · exact .rfl

theorem perform_carries (c : MailCommand) (x : TakenCommand) {s : State}
    (h : stateAllows c s.capture.device s.capture.drainCause = true) : Carries s (perform c x s).1 := by
  refine ⟨perform_preserves c x h, fun hs => ?_⟩
  by_cases hcommit : c = .commit
  · subst hcommit
    refine commitPlan_extends (readPlan_roundBias _) (fun hd => ?_) hs
    rw [hd] at h
    cases h
  · by_cases hstart : c = .start
    · subst hstart
      show Extends s (doStart x.arg0 x.arg1 s).1
      unfold doStart
      split
      · exact .rfl
      · exact beginCapture_extends _ _ (hs.closed (by rw [of_decide_eq_true h]; rfl))
    · exact (perform_sheds x s hcommit hstart).extends

theorem takeCommand_carries (x : TakenCommand) (s : State) : Carries s (takeCommand x s) := by
  unfold takeCommand
  split
  · exact answer_carries _ _ s
  · refine .ite (fun _ => answer_carries _ _ s) fun _ => .ite (fun h => ?_) fun _ => answer_carries _ _ s
    unfold answerWith
    split
    · exact perform_carries _ x h
    · exact (perform_carries _ x h).trans (answer_carries _ _ _)

/-! ### The fabric port (R2, R5) -/

theorem hold_carries (r : FabricRequest) (lane : Option Lane) (ds : List Derived) (s : State) :
    Carries s (hold r lane ds s) := by
  refine Sheds.carries ?_ (hold_kept r lane ds s).preserves
  unfold hold
  split <;> exact {}

theorem consumerActs_carries (v : Count) (s : State) : Carries s (consumerActs v s) := by
  refine Sheds.carries ?_ (consumerActs_kept v s).preserves
  unfold consumerActs
  split
  · exact .rfl
  · exact .ite .rfl (.ite (raise_sheds _ _ s) (.ite {} {}))

theorem planWriteEffect_carries (w : FabricWrite) (s : State) : Carries s (planWriteEffect w s) := by
  have hcopy (off : Nat) (data : List Byte) : Carries s (copyToShadow off data s) := Sheds.carries {} (Kept.preserves {})
  have hconsumer (off len : Nat) (u : State) : Carries u (planConsumer off len u) :=
    .ite (fun _ => consumerActs_carries _ u) fun _ => .rfl
  have hcommand (off len : Nat) (u : State) : Carries u (planCommand off len u) :=
    .ite (fun _ => takeCommand_carries _ u) fun _ => .rfl
  exact (hcopy _ _).trans ((hconsumer _ _ _).trans ((hcommand _ _ _).trans (present_carries _)))

theorem landingEffect_carries (n : Lane) (w : FabricWrite) (s : State) : Carries s (landingEffect n w s) := by
  have hburst (off : Nat) : Carries s (landingBurst n w.addr.toNat off w.tag w.data s).1 :=
    ⟨(landingBurst_kept _ _ _ _ _ s).preserves, landingBurst_extends _ _ _ _ _⟩
  exact (hburst _).trans ((settle_carries _).trans ((hold_carries _ _ _ _).trans (present_carries _)))

theorem takeRequest_carries (r : FabricRequest) (s : State) : Carries s (takeRequest r s) := by
  cases r with
  | read a len tag =>
    show Carries s (hold (.read a len tag) none [{ kind := .forward, req := .read a.toNat len tag }] s)
    exact hold_carries _ _ _ s
  | write w =>
    show Carries s (takeWrite w s)
    unfold takeWrite
    split
    · exact (hold_carries _ _ _ s).trans (planWriteEffect_carries w _)
    · exact landingEffect_carries _ w s
    · exact hold_carries _ _ _ s

/-- The requests that wait at the fabric port are none of the invariants' business. -/
theorem offered_carries (os : List FabricRequest) (s : State) : Carries s { s with offered := os } :=
  Sheds.carries {} (Kept.preserves {})

theorem serveList_carries (l : List FabricRequest) (s : State) : Carries s (serveList l s) := by
  induction l generalizing s with
  | nil => exact offered_carries [] s
  | cons r rest ih => exact .ite (fun _ => offered_carries _ s) fun _ => (takeRequest_carries r s).trans (ih _)

theorem serve_carries (s : State) : Carries s (serve s) := serveList_carries _ s

theorem offer_carries (r : FabricRequest) (s : State) : Carries s (offer r s) :=
  .ite (fun _ => takeRequest_carries r s) fun _ => (offered_carries _ s).trans (serve_carries _)

theorem offerWrite_carries {w : FabricWrite} {s t : State} (h : offerWrite w s = .next t) : Carries s t := by
  rw [offerWrite_eq] at h
  split at h
  · cases h
    exact offer_carries _ s
  · cases h

/-! ### The memory port (R12) -/

theorem derivedTaken_carries (s : State) : Carries s (derivedTaken s) := by
  unfold derivedTaken
  split
  · exact .rfl
  next h _ =>
    split
    · exact .rfl
    next d rest _ =>
      have hissue : Carries s (issue d.req { s with held := h.keep rest }) := Sheds.carries {} (Kept.preserves {})
      exact hissue.trans (serve_carries _)

theorem recordEffect_sheds (k : RecordKind) (s : State) : Sheds s (recordEffect k s) := by
  unfold recordEffect
  split
  · exact .ite {} .rfl
  · exact {}
  · unfold frameRecordTaken
    split <;> exact {}

theorem takePresented_sheds (w : ReportWrite) (s : State) : Sheds s (takePresented w s) := {}

theorem recordTaken_carries (s : State) : Carries s (recordTaken s) := by
  refine Sheds.carries ?_ (recordTaken_kept s).preserves
  have hcount (u : State) : Sheds u (countRecord u) := {}
  unfold recordTaken
  split
  · exact .ite .rfl ((takePresented_sheds _ s).trans ((recordEffect_sheds _ _).trans ((hcount _).trans (present_sheds _))))
  · exact .rfl

theorem reportWordTaken_carries (s : State) : Carries s (reportWordTaken s) := by
  refine Sheds.carries ?_ (reportWordTaken_kept s).preserves
  unfold reportWordTaken
  split
  · exact .ite .rfl ((takePresented_sheds _ s).trans (present_sheds _))
  · exact .ite .rfl ((takePresented_sheds _ s).trans (present_sheds _))
  · exact .rfl

theorem snapshotWriteTaken_carries (s : State) : Carries s (snapshotWriteTaken s) := by
  refine Sheds.carries ?_ (snapshotWriteTaken_kept s).preserves
  have hends (u : State) : Sheds u (snapshotEnds u) := by
    unfold snapshotEnds
    split <;> exact {}
  unfold snapshotWriteTaken
  split
  · exact .ite .rfl ((takePresented_sheds _ s).trans ((hends _).trans (present_sheds _)))
  · exact .rfl

theorem fillWriteTaken_carries (s : State) : Carries s (fillWriteTaken s) := by
  refine Sheds.carries ?_ (fillWriteTaken_preserves s)
  have hissue (r : MemRequest) : Sheds s (issue r s) := {}
  unfold fillWriteTaken
  split
  · exact .rfl
  · split
    · exact .rfl
    · exact .ite .rfl ((hissue _).trans ((advancePatch_sheds _ _).trans ((settle_sheds _).trans (present_sheds _))))

/-! ### The timers (R113, R151) -/

theorem atTimerSeal_sheds (number : Count) (s : State) : Sheds s (atTimerSeal number s) := by
  have hcut : Sheds s (cutHeldLine number s) := .ite (onFrame_sheds _ s fun _ => rfl) .rfl
  have hstop (u : State) : Sheds u (timerStopped u) := {}
  have hwithdraw (u : State) : Sheds u (withdraw number u) := by
    rw [withdraw_only]
    exact {}
  exact hcut.trans ((hstop _).trans (hwithdraw _))

theorem atTimerSeal_kept (number : Count) (s : State) : Kept s (atTimerSeal number s) := by
  have hstop (u : State) : Kept u (timerStopped u) := {}
  exact (cutHeldLine_kept number s).trans ((hstop _).trans (withdraw_kept number _))

theorem sealTimerExpires_carries (s : State) : Carries s (sealTimerExpires s) := by
  cases h : s.table.sealTimer with
  | idle =>
    rw [sealTimerExpires_idle h]
    exact .rfl
  | running number r =>
    rw [sealTimerExpires_running h]
    have hseal : Carries s (sealWithCascade .timer (atTimerSeal number s)) :=
      ((atTimerSeal_sheds number s).trans (sealWithCascade_sheds .timer _)).carries
        ((atTimerSeal_kept number s).trans (sealWithCascade_kept .timer _)).preserves
    exact hseal.trans ((settle_carries _).trans ((present_carries _).trans (serve_carries _)))

theorem attentionExpires_carries (s : State) : Carries s (attentionExpires s) := by
  refine Sheds.carries ?_ (attentionExpires_kept s).preserves
  unfold attentionExpires
  split
  · exact {}
  · exact .rfl

theorem tick_carries (s : State) : Carries s (tick s) := by
  have hseal : Carries s (tickSealTimer s) := by
    unfold tickSealTimer
    split
    · exact .rfl
    · exact .ite (fun _ => sealTimerExpires_carries s) fun _ => Sheds.carries {} (Kept.preserves {})
  have hattn (u : State) : Carries u (tickAttnTimer u) := by
    unfold tickAttnTimer
    split
    · exact .ite (fun _ => attentionExpires_carries u) fun _ => Sheds.carries {} (Kept.preserves {})
    · exact .rfl
  exact hseal.trans (hattn _)

/-! ### One step -/

theorem powerOn_carries (sel : Byte) (s : State) : Carries s (powerOn sel s) := by
  have hreset : Carries s { State.resetWith sel with
      offered := s.offered, memStream := s.memStream, fabricOut := s.fabricOut, pending := s.pending } :=
    ⟨⟨fun _ => reset_captureInv sel, fun _ => rfl, fun _ => reset_countsInv sel⟩, fun _ =>
      ⟨fun _ => chainOf_closed rfl, fun _ => ⟨nofun, nofun, nofun⟩⟩⟩
  exact hreset.trans (serve_carries _)

theorem exec_carries {c : Instr} {s t : State} (h : exec c s = .next t) : Carries s t := by
  cases c with
  | read a len tag =>
    rw [execRead_eq] at h
    split at h
    · cases h
      exact offer_carries _ s
    · cases h
  | passWrite w => exact offerWrite_carries h
  | planWrite w => exact offerWrite_carries h
  | lineStart w => exact offerWrite_carries h
  | continuation w => exact offerWrite_carries h
  | powerOnReset sel => cases h; exact powerOn_carries sel s
  | readResponse tag data => cases h; exact Sheds.carries {} (Kept.preserves {})
  | derivedRequestTaken => cases h; exact derivedTaken_carries s
  | recordTaken => cases h; exact recordTaken_carries s
  | reportWordTaken => cases h; exact reportWordTaken_carries s
  | snapshotWriteTaken => cases h; exact snapshotWriteTaken_carries s
  | fillWriteTaken => cases h; exact fillWriteTaken_carries s
  | sealTimerExpiry => cases h; exact sealTimerExpires_carries s
  | attentionTimerExpiry => cases h; exact attentionExpires_carries s
  | _ => cases h; exact offer_carries _ s

theorem step_carries {s t : State} (h : step s = .next t) : Carries s t := by
  unfold step at h
  split at h
  · cases h
    exact tick_carries s
  next rest _ =>
    have hrest : Carries s { s with pending := rest } := Sheds.carries {} (Kept.preserves {})
    exact hrest.trans (exec_carries h)

/-- Settles O55: every step is one that carries the chain (`step_carries`). -/
theorem stepKeepsFrameChain : Obligations.StepKeepsFrameChain := by
  intro s t hs h
  obtain ⟨hcapture, hchain⟩ := (chainInv_iff s).mp hs
  have hstep := step_carries h
  exact (chainInv_iff t).mpr ⟨hstep.preserves.capture hcapture, (hstep.carried hcapture).chain hchain⟩

/-- Settles O56, as O55. -/
theorem stepKeepsRows : Obligations.StepKeepsRows := by
  intro s t hs h
  obtain ⟨hcapture, hrows⟩ := (rowsInv_iff s).mp hs
  have hstep := step_carries h
  exact (rowsInv_iff t).mpr ⟨hstep.preserves.capture hcapture, (hstep.carried hcapture).rows hrows⟩

end Sys2Proof.Machine
end

section
/-! Marks and lost marks (R54, R59 to R62, R64, R65). -/

namespace Sys2Proof.Machine

/-! ### The frame of a number -/

/-- The first frame of a number, once every frame has been changed in something other than its number. -/
theorem find?_number_map {g : Frame → Frame} (hg : ∀ f, (g f).number = f.number) (k : Count) (fs : List Frame) :
    (fs.map g).find? (fun f => decide (f.number = k)) = (fs.find? fun f => decide (f.number = k)).map g := by
  rw [List.find?_map]
  congr 2
  funext f
  exact congrArg (fun m => decide (m = k)) (hg f)

/-- A recomputation leaves the mark-taken flag of every frame. -/
theorem recompute_markTaken {s : State} {k : Count} {g : Frame} (h : s.frameOf k = some g) :
    ∃ g', (recompute s).frameOf k = some g' ∧ g'.markTaken = g.markTaken := by
  rcases recompute_cases s with e | ⟨older, f, ho, -, e⟩
  · exact ⟨g, by rw [e]; exact h, rfl⟩
  · unfold State.frameOf at h ⊢
    rw [ho, List.find?_append] at h
    rw [e]
    dsimp only
    rw [List.find?_append]
    cases hold : older.find? (fun f => decide (f.number = k)) with
    | some a =>
      rw [hold] at h
      exact ⟨a, rfl, by cases h; rfl⟩
    | none =>
      rw [hold, Option.none_or, List.find?_singleton] at h
      rw [Option.none_or, List.find?_singleton]
      dsimp only at h ⊢
      split at h
      · cases h
        rw [if_pos ‹_›]
        exact ⟨_, rfl, rfl⟩
      · cases h

/-! ### A mark that is taken (R61) -/

/-- A frame in which a mark has been taken, if it is the frame of that number. -/
def Frame.marked (frame : Count) (g : Frame) : Frame := if g.number = frame then { g with markTaken := true } else g

theorem Frame.marked_eq (frame : Count) (g : Frame) : ∃ m, g.marked frame = { g with markTaken := m } := by
  unfold marked
  split
  · exact ⟨true, rfl⟩
  · exact ⟨g.markTaken, rfl⟩

theorem markedFrame_frameOf {frame : Count} {s : State} {f : Frame} (e : Int) (h : s.frameOf frame = some f) :
    ∃ g, (markedFrame frame e s).frameOf frame = some g ∧ g.markTaken = true := by
  have hnumber : f.number = frame := by
    have hfound := List.find?_some (p := fun f : Frame => decide (f.number = frame)) h
    exact of_decide_eq_true hfound
  refine ⟨f.marked frame, ?_, ?_⟩
  · have hmap := find?_number_map (g := Frame.marked frame)
      (fun g => by obtain ⟨m, hm⟩ := g.marked_eq frame; rw [hm]) frame s.table.openFrames
    exact hmap.trans (by rw [show s.table.openFrames.find? (fun f => decide (f.number = frame)) = some f from h]; rfl)
  · unfold Frame.marked
    rw [if_pos hnumber]

theorem takeMark_newest {frame : Count} {s : State} {older : List Frame} {o : Frame} (e : Int)
    (ho : s.table.openFrames = older ++ [o]) :
    let c := limitStep s.livePlan.run.markMaxStep (Int.tdiv e (2 ^ s.livePlan.run.markGain))
    takeMark frame e s = if o.fixed then markedFrame frame e s else { markedFrame frame e s with
      table := { s.table with openFrames := older.map (Frame.marked frame)
        ++ [{ o.marked frame with rows := provisionalRows s.livePlan c o }] }
      reg := { s.reg with correction := c, markLost := 0, next := some (nextBoundary s.livePlan c o) } } := by
  intro c
  obtain ⟨m, hm⟩ := o.marked_eq frame
  have hopen : (markedFrame frame e s).table.openFrames = older.map (Frame.marked frame) ++ [o.marked frame] := by
    show s.table.openFrames.map (Frame.marked frame) = _
    rw [ho, List.map_append]
    rfl
  rw [takeMark_eq, recompute_newest hopen, hm]
  rfl

/-- The recomputation that follows a mark leaves all but the open frames and the next boundary. -/
theorem takeMark_rest (frame : Count) (e : Int) (s : State) :
    let t := takeMark frame e s
    t.reg.correction = limitStep s.livePlan.run.markMaxStep (Int.tdiv e (2 ^ s.livePlan.run.markGain))
      ∧ t.reg.markLost = 0 ∧ t.reg.origin = s.reg.origin ∧ t.report = s.report
      ∧ t.lanes = s.lanes ∧ t.table.queue = s.table.queue ∧ t.table.slots = s.table.slots := by
  intro t
  have ht : t = recompute (markedFrame frame e s) := rfl
  rcases recompute_cases (markedFrame frame e s) with h | ⟨_, _, -, -, h⟩
  · rw [ht, h]
    exact ⟨rfl, rfl, rfl, rfl, rfl, rfl, rfl⟩
  · rw [ht, h]
    exact ⟨rfl, rfl, rfl, rfl, rfl, rfl, rfl⟩

/-! ### The evaluation of a line as a mark (R59, R60) -/

/-- The conditions of R59 for a line of lane n in an open frame. -/
def State.marks (s : State) (n : Lane) (mark : Bool) (f : Frame) : Prop :=
  s.capture.device = .running ∧ mark = true ∧ s.livePlan.static.lanes[n].markSource = true ∧ f.markTaken = false

theorem evaluateMark_unmarked {n : Lane} {mark : Bool} {frame : Count} {row : Nat} {s : State} {f : Frame}
    (hf : s.frameOf frame = some f) (h : ¬s.marks n mark f) : evaluateMark n mark frame row s = s := by
  unfold evaluateMark
  rw [hf]
  refine if_neg fun hc => h ?_
  simp only [Bool.and_eq_true, decide_eq_true_eq, Bool.not_eq_true'] at hc
  obtain ⟨⟨⟨hrun, hmark⟩, hsource⟩, hfirst⟩ := hc
  exact ⟨hrun, hmark, hsource, hfirst⟩

theorem evaluateMark_marked {n : Lane} {mark : Bool} {frame : Count} {row : Nat} {s : State} {f : Frame}
    (hf : s.frameOf frame = some f) (h : s.marks n mark f) :
    evaluateMark n mark frame row s =
      let e := markError s.livePlan.static f.residue row
      if (s.livePlan.run.markWindow * 65536 : Int) < |e| then raise latchMarkWindow (.markWindow frame n row e) s
      else takeMark frame e s := by
  obtain ⟨hrun, hmark, hsource, hfirst⟩ := h
  unfold evaluateMark
  rw [hf]
  exact if_pos (by rw [hrun, hmark, hsource, hfirst]; rfl)

/-- Settles O26: the mark evaluation by its conditions (`evaluateMark_unmarked`, `evaluateMark_marked`), a mark in the window
by `takeMark_newest`, and the seal's count by its definition. -/
theorem marksAndLostMarks : Obligations.MarksAndLostMarks := by
  refine ⟨fun n mark frame row s f hf => ?_, fun f s => ?_⟩
  · intro p e marks t
    refine ⟨fun h => evaluateMark_unmarked hf h, fun h hout => ?_, fun h hin => ?_⟩
    · exact (evaluateMark_marked hf h).trans (if_pos hout)
    · have ht : t = takeMark frame e s := (evaluateMark_marked hf h).trans (if_neg (Int.not_lt.mpr hin))
      obtain ⟨hcorrection, hlost, horigin, hreport, hlanes, hqueue, hslots⟩ := takeMark_rest frame e s
      rw [← ht] at hcorrection hlost horigin hreport hlanes hqueue hslots
      refine ⟨hcorrection, hlost, horigin, hreport, ?_, fun older o ho => ?_, hlanes, hqueue, hslots⟩
      · obtain ⟨g, hg, htaken⟩ := markedFrame_frameOf e hf
        obtain ⟨g', hg', hsame⟩ := recompute_markTaken hg
        exact ⟨g', by rw [ht]; exact hg', hsame.trans htaken⟩
      · have hnewest := takeMark_newest (frame := frame) e ho
        rw [← ht] at hnewest
        refine ⟨fun hfixed => ?_, fun hfixed => ?_⟩
        · rw [hcorrection, hnewest, hfixed]
          exact ⟨rfl, rfl⟩
        · rw [hnewest, hfixed]
          refine ⟨?_, rfl⟩
          show s.table.openFrames.map (Frame.marked frame) = _
          rw [ho, List.map_append]
          rfl
  · intro count limit counted
    refine ⟨fun h => if_pos h, fun h hlimit => ?_, fun h hne hle => ?_⟩
    · refine (if_neg (by rw [h]; exact Bool.false_ne_true)).trans (if_neg fun hc => ?_)
      obtain ⟨hne, hle⟩ := hc
      rcases hlimit with h0 | hlt
      · exact hne h0
      · exact absurd hlt (Nat.not_lt.mpr hle)
    · exact (if_neg (by rw [h]; exact Bool.false_ne_true)).trans (if_pos ⟨hne, hle⟩)

end Sys2Proof.Machine
end

section
/-! Slots, and the frames that open (R53, R55, R77 to R79, R112, R118). -/

namespace Sys2Proof.Machine

/-! ### The cyclic search for a slot (R78) -/

/-- The slot from which the cyclic search starts. -/
def firstSearched : Option (Fin 32) → Nat
  | none => 0
  | some k => k.val + 1

/-- The slot at a place of the search order. -/
def slotAt (slots first i : Nat) : Fin 32 := Fin.ofNat 32 ((first + i) % slots)

theorem searchOrder_eq (slots : Nat) (last : Option (Fin 32)) :
    searchOrder slots last = (List.range slots).map (slotAt slots (firstSearched last)) := by
  cases last <;> rfl

section
variable {slots : Nat} (hlow : 1 ≤ slots) (hup : slots ≤ 32)
include hlow hup

theorem slotAt_val (first i : Nat) : (slotAt slots first i).val = (first + i) % slots :=
  Nat.mod_eq_of_lt (Nat.lt_of_lt_of_le (Nat.mod_lt _ hlow) hup)

/-- The search comes to every slot below SLOTS. -/
theorem exists_slotAt (first : Nat) {k : Fin 32} (hk : k.val < slots) : ∃ i, i < slots ∧ slotAt slots first i = k := by
  refine ⟨(k.val + (slots - first % slots)) % slots, Nat.mod_lt _ hlow, Fin.ext ?_⟩
  have hfirst : first % slots < slots := Nat.mod_lt _ hlow
  have hsum : first % slots + (k.val + (slots - first % slots)) = k.val + slots := by omega
  rw [slotAt_val hlow hup, Nat.add_mod_mod, ← Nat.mod_add_mod, hsum, Nat.add_mod_right, Nat.mod_eq_of_lt hk]

theorem findFreeSlot_some {t : FrameTable} {first : Nat} (hfirst : firstSearched t.lastAllocated = first) {k : Fin 32}
    (h : findFreeSlot slots t = some k) :
    t.slots[k] = .free ∧ k.val < slots
      ∧ ∃ i, i < slots ∧ k = slotAt slots first i ∧ ∀ j, j < i → t.slots[slotAt slots first j] ≠ .free := by
  have hfree := findFreeSlot_free h
  unfold findFreeSlot at h
  rw [searchOrder_eq, hfirst, List.find?_map, Option.map_eq_some_iff] at h
  obtain ⟨i, hi, rfl⟩ := h
  obtain ⟨-, hmem, hbefore⟩ := List.find?_range_eq_some.mp hi
  have hlt : i < slots := List.mem_range.mp hmem
  refine ⟨hfree, ?_, i, hlt, rfl, fun j hj => ?_⟩
  · rw [slotAt_val hlow hup]
    exact Nat.mod_lt _ hlow
  · simpa using hbefore j hj

theorem findFreeSlot_none (t : FrameTable) :
    findFreeSlot slots t = none ↔ ∀ k : Fin 32, k.val < slots → t.slots[k] ≠ .free := by
  unfold findFreeSlot
  rw [searchOrder_eq, List.find?_eq_none]
  constructor
  · intro h k hk
    obtain ⟨i, hi, rfl⟩ := exists_slotAt hlow hup (firstSearched t.lastAllocated) hk
    simpa using h _ (List.mem_map_of_mem (List.mem_range.mpr hi))
  · intro h k hk
    obtain ⟨i, -, rfl⟩ := List.mem_map.mp hk
    have hlt : (slotAt slots (firstSearched t.lastAllocated) i).val < slots := by
      rw [slotAt_val hlow hup]
      exact Nat.mod_lt _ hlow
    simpa using h _ hlt

end

/-! ### NO_SLOT (R79) -/

/-- The raise of NO_SLOT for a frame that opens without a slot (R79, R146). -/
theorem opened_raisedOnce {frame : Count} {s t : State} (h : t.report = s.report.opened frame none) :
    RaisedOnce 50 (.noSlot frame) s t := by
  have hother (j : Fin 52) (hj : j ≠ 50) : t.report.latches[j] = s.report.latches[j] := by
    rw [h]
    exact raise_latch_other s 50 j (.noSlot frame) hj
  have hsame : t.report.latches[(50 : Fin 52)] = Latch.raise (.noSlot frame) s.report.latches[(50 : Fin 52)] := by
    rw [h]
    exact raise_latch_same s 50 (.noSlot frame)
  unfold RaisedOnce
  rw [hsame]
  refine ⟨rfl, fun hclear => ?_, fun hclear => ?_, hother⟩
  · unfold Latch.raise
    rw [if_pos hclear, if_pos hclear]
    exact ⟨rfl, rfl⟩
  · unfold Latch.raise
    rw [if_neg hclear, if_neg hclear]
    exact ⟨rfl, rfl⟩

/-! ### The FORCED seal (R77, R112, R115 to R118) -/

/-- A frame with a slot that seals FORCED: its entry is the last of the queue, and its slot is handed on (R117). -/
theorem enqueueSealed_fifth {p : Plan} {f : Frame} {k : Fin 32} {cut : Nat} {fixed : Bool} {s : State} (hp : s.livePlan = p)
    (hk : f.slot = some k) :
    enqueueSealed .fifth (f.sealedWith p cut fixed) s = { s with table := { s.table with
      queue := s.table.queue ++ [.slot (slotEntryOf (f.sealedWith p cut fixed) k .forced (handed p f))]
      slots := s.table.slots.set k (if handed p f then .patching else .ready) } } := by
  have hslot : (f.sealedWith p cut fixed).slot = some k := (Frame.sealedWith_slot p cut fixed f).trans hk
  have hst : sealStatus .fifth (f.sealedWith p cut fixed) = .forced := by
    unfold sealStatus
    rw [hslot]
    rfl
  unfold enqueueSealed
  rw [hslot]
  dsimp only
  rw [hst, hp, decide_eq_true (by exact nofun), Bool.and_true]
  rfl

theorem linesInFlight_eq (s : State) (number : Count) : linesInFlight number s.lanes = s.cutsInto number := by
  unfold linesInFlight State.cutsInto
  rw [finRange_eight]

/-- The state that the FORCED seal of a frame with slot k leaves, with the frames `o :: rest` open. -/
def afterForced (f o : Frame) (rest : List Frame) (k : Fin 32) (latches : Vector Latch 52) (s : State) : State :=
  { withoutOldest f (o :: rest) latches s with
    table := { s.table with
      openFrames := o :: rest
      queue := s.table.queue
        ++ [.slot (slotEntryOf (f.sealedWith s.livePlan (s.cutsInto f.number) f.fixed) k .forced (handed s.livePlan f))]
      slots := s.table.slots.set k (if handed s.livePlan f then .patching else .ready)
      sealTimer := timerOnceSeen false s.livePlan.run o (s.table.sealTimer.stopFor f.number) } }

theorem forceSeal_full {s : State} {f o : Frame} {rest : List Frame} {k : Fin 32} (ho : s.table.openFrames = f :: o :: rest)
    (hlen : 2 ≤ rest.length) (hmode : s.capture.mode = .continuous) (hk : f.slot = some k) (hwait : Awaited none s o) :
    ∃ latches, forceSeal s = afterForced f o rest k latches s := by
  have hfull : Config.maxOpen ≤ s.table.openFrames.length := by
    rw [ho, List.length_cons, List.length_cons]
    exact Nat.add_le_add_right (Nat.add_le_add_right hlen 1) 1
  have hfix : fixIfOnly s = s := by unfold fixIfOnly; rw [ho]
  have hseal : sealOldest .fifth s = sealFrame .fifth f (o :: rest) s := by
    unfold sealOldest
    rw [hfix]
    dsimp only
    rw [ho]
  obtain ⟨latches, hframe⟩ := sealFrame_eq .fifth f (o :: rest) s
  have hdone : sealedFrame s f = f.sealedWith s.livePlan (s.cutsInto f.number) f.fixed :=
    sealedFrame_eq (u := s) (d := f.damaged) f.fixed (by rw [linesInFlight_eq])
  have hplan : (withoutOldest f (o :: rest) latches s).livePlan = s.livePlan := rfl
  rw [hdone, enqueueSealed_fifth hplan hk] at hframe
  refine ⟨latches, ?_⟩
  have hturn : sealAndTurn .fifth s = afterForced f o rest k latches s := by
    unfold sealAndTurn
    rw [hseal]
    generalize sealFrame .fifth f (o :: rest) s = v at hframe
    have hend : singleEnd v = v := if_neg fun hc => by
      rw [hframe] at hc
      exact absurd (hc.2.symm.trans hmode) nofun
    rw [hend, loadSealTimer_eq (o := o) (rest := rest) (by rw [hframe]; rfl), hframe]
    rfl
  have hlanes (m : Lane) : (cutLanes f.number s.lanes)[m].state = s.lanes[m].state := by rw [cutLanes_getElem]
  have hawaited : Awaited none (afterForced f o rest k latches s) o := by
    refine hwait.imp id ?_
    rintro ⟨m, hm, hen, hst, hpassed⟩
    exact ⟨m, hm, hen, (hlanes m).trans hst, hpassed⟩
  show (if _ then sealWithCascade .fifth s else s) = _
  rw [if_pos hfull]
  unfold sealWithCascade
  rw [hturn]
  exact evalSealTest_of_not (sealTest_awaited (o := o) (rest := rest) rfl hawaited)

/-- The slot that a frame sealing leaves PATCHING or READY was not FREE before, so it is passed over in the search as before. -/
theorem findFreeSlot_set {slots : Nat} {t : FrameTable} {k : Fin 32} {st : SlotState} (hk : t.slots[k] ≠ .free)
    (hst : st ≠ .free) {fs : List Frame} {q : List QueueEntry} {timer : SealTimer} :
    findFreeSlot slots { t with openFrames := fs, queue := q, slots := t.slots.set k st, sealTimer := timer }
      = findFreeSlot slots t := by
  unfold findFreeSlot
  congr 1
  funext j
  by_cases hj : k.val = j.val
  · obtain rfl : k = j := Fin.ext hj
    simp_all
  · rw [Fin.getElem_fin, Fin.getElem_fin, Vector.getElem_set_ne _ _ hj]

/-- A frame that opens changes no slot but its own. -/
theorem slotsOpened_other (slots : Vector SlotState 32) {slot : Option (Fin 32)} {j : Fin 32} (h : slot ≠ some j) :
    (slotsOpened slots slot)[j] = slots[j] := by
  cases slot with
  | none => rfl
  | some k => exact Vector.getElem_set_ne k.isLt j.isLt fun e => h (congrArg some (Fin.ext e))

/-- A timer that runs for no frame but the one that seals is idle after it (R112). -/
theorem stopFor_idle {t : SealTimer} {number : Count} (h : t = .idle ∨ ∃ r, t = .running number r) :
    t.stopFor number = .idle := by
  rcases h with rfl | ⟨r, rfl⟩
  · rfl
  · exact if_pos rfl

/-- A frame that opens behind four or more frames, of which the oldest, with slot k, has sealed FORCED. -/
theorem openFrame_full {b : Boundary} {s : State} {f o : Frame} {rest : List Frame} {k : Fin 32}
    (ho : s.table.openFrames = f :: o :: rest) (hlen : 2 ≤ rest.length) (hmode : s.capture.mode = .continuous)
    (hk : f.slot = some k) (hfilling : s.table.slots[k] = .filling) (hwait : Awaited none s o) :
    let slot := findFreeSlot s.livePlan.static.slots s.table
    let g := { newFrame b slot with rows := provisionalRows s.livePlan 0 (newFrame b slot) }
    ∃ latches, let u := afterForced f o rest k latches (setCorrection 0 s)
      openFrame b s = { u with
        table := { u.table with
          openFrames := o :: rest ++ [g]
          slots := slotsOpened u.table.slots slot
          lastAllocated := lastOpened s.table.lastAllocated slot }
        reg := { u.reg with next := some (nextBoundary s.livePlan 0 g) }
        report := u.report.opened b.frame slot } := by
  intro slot g
  obtain ⟨latches, hu⟩ := forceSeal_full (s := setCorrection 0 s) ho hlen hmode hk hwait
  have hsearch : findFreeSlot (afterForced f o rest k latches (setCorrection 0 s)).livePlan.static.slots
      (afterForced f o rest k latches (setCorrection 0 s)).table = slot := by
    refine findFreeSlot_set (t := s.table) (by rw [hfilling]; exact nofun) ?_
    split <;> exact nofun
  have hopen := openFrame_behind (b := b) hu
  rw [hsearch] at hopen
  exact ⟨latches, hopen⟩

/-- Settles O28: the search by `findFreeSlot_some` and `findFreeSlot_none`, a frame behind at most three by `openFrame_room`,
and one behind four by the FORCED seal (`forceSeal_full`). -/
theorem frameOpens : Obligations.FrameOpens := by
  refine ⟨fun slots t hlow hup => ?_, fun b s hroom => ?_, fun b s f o rest k ho hlen hmode hk hfilling hwait => ?_⟩
  · intro first at'
    have hfirst : firstSearched t.lastAllocated = first := by
      show _ = (match t.lastAllocated with | none => 0 | some k => k.val + 1)
      cases t.lastAllocated <;> rfl
    exact ⟨fun k hk => findFreeSlot_some hlow hup hfirst hk, findFreeSlot_none hlow hup t⟩
  · intro slot t
    have ht : t = _ := openFrame_room (b := b) hroom
    rw [ht]
    refine ⟨⟨_, rfl, rfl, rfl, rfl, rfl, rfl, rfl, rfl, rfl, rfl, rfl, rfl, rfl, rfl, rfl, rfl, rfl, rfl, rfl,
      rowsOnOpening rfl rfl rfl rfl⟩, rfl, rfl, rfl, rfl, fun k hk => ?_, fun hnone => ?_⟩
    · have hslot : findFreeSlot s.livePlan.static.slots s.table = some k := hk
      rw [hslot]
      exact ⟨rfl, rfl, rfl⟩
    · have hslot : findFreeSlot s.livePlan.static.slots s.table = none := hnone
      rw [hslot]
      exact ⟨rfl, rfl, opened_raisedOnce rfl⟩
  · intro slot t patched
    obtain ⟨latches, ht⟩ := openFrame_full (b := b) ho hlen hmode hk hfilling hwait
    replace ht : t = _ := ht
    -- A slot that the search finds is not the one of the frame that seals.
    have hother (j : Fin 32) (hj : slot = some j) : j ≠ k := by
      rintro rfl
      have hfree : s.table.slots[j] = .free := findFreeSlot_free hj
      rw [hfilling] at hfree
      cases hfree
    have hslots (j : Fin 32) (hj : slot ≠ some j) : t.table.slots[j]
        = (s.table.slots.set k (if handed s.livePlan f then .patching else .ready))[j] := by
      rw [ht]
      exact slotsOpened_other _ hj
    have hnew (j : Fin 32) (hj : slot = some j) : t.table.slots[j] = .filling ∧ t.table.lastAllocated = some j := by
      rw [ht, show findFreeSlot s.livePlan.static.slots s.table = some j from hj]
      exact ⟨Vector.getElem_set_self _, rfl⟩
    have hk' : slot ≠ some k := fun e => hother k e rfl
    have hmine : t.table.slots[k] = if handed s.livePlan f then .patching else .ready :=
      (hslots k hk').trans (Vector.getElem_set_self _)
    have hpatched : patched ↔ handed s.livePlan f = true := by
      simp [patched, handed]
    refine ⟨slotEntryOf (f.sealedWith s.livePlan (s.cutsInto f.number) f.fixed) k .forced (handed s.livePlan f),
      { newFrame b slot with rows := provisionalRows s.livePlan 0 (newFrame b slot) }, by rw [ht], rfl, rfl, rfl, rfl, rfl,
      rfl, ?_, by rw [ht]; rfl, hk', by rw [ht]; rfl, sealedEntry_slotEntryOf _ _ _ _ hk, fun h => ?_, fun h => ?_,
      fun j hj hjs => ?_, hnew, fun n x q place h => ?_, fun n h => ?_, fun htimer => ?_⟩
    · rw [ht]
      exact rowsOnOpening rfl rfl rfl rfl
    · rw [hmine, hpatched.mp h]
      exact ⟨rfl, rfl⟩
    · rw [hmine, Bool.eq_false_of_not_eq_true (mt hpatched.mpr h)]
      exact ⟨rfl, rfl⟩
    · rw [hslots j hjs]
      exact Vector.getElem_set_ne _ _ fun e => hj (Fin.ext e.symm)
    · rw [ht]
      exact (cutLanes_cases f.number s.lanes n).1 x q place h
    · rw [ht]
      exact (cutLanes_cases f.number s.lanes n).2 h
    · rw [ht]
      show timerOnceSeen false s.livePlan.run o (s.table.sealTimer.stopFor f.number) = _
      rw [stopFor_idle htimer]

end Sys2Proof.Machine
end

section
/-! Attribution of a line (R54, R55, R69 to R75, R80, R81, R112). -/

namespace Sys2Proof.Machine

section
variable {n : Lane} {line : Line} {s : State} {b : Boundary}

/-! ### CONTINUOUS mode (R69 to R74) -/

/-- The distance of a line from the oldest start, or from the next boundary with no frame open (R69). -/
def distance (line : Line) (b : Boundary) (s : State) : Int := (line.pos - baseCount b s.table.openFrames).toInt

/-- Attribution by the distance, with the two extents written out. -/
theorem attributeContinuous_eq (hb : s.reg.next = some b) :
    attributeContinuous n line s =
      let p := s.livePlan.static
      let fs := s.table.openFrames
      let d := distance line b s
      if d < 0 then (behindAnswer fs, s)
      else if d < (extents p fs : Int) then
        match locate p fs d.toNat with
        | none => (.quiet, s)
        | some r => placeInOpen n r.1 r.2 line.time s
      else if d < ((extents p fs + (b.residue + p.repeatLen) / 65536 * p.phases : Nat) : Int) then
        openAndPlace n b (d.toNat - extents p fs) line.time s
      else (.farAhead, s) := by
  unfold attributeContinuous
  rw [hb]
  dsimp only
  rw [openExtent_eq, Int.natCast_add]
  rfl

/-- A line behind the open frames (R70). -/
theorem attributeContinuous_behind (hb : s.reg.next = some b) (hd : distance line b s < 0) :
    attributeContinuous n line s = (behindAnswer s.table.openFrames, s) := by
  rw [attributeContinuous_eq hb]
  exact if_pos hd

/-- A line at or past the end of the next frame (R73). -/
theorem attributeContinuous_farAhead (hb : s.reg.next = some b)
    (hd : ((extents s.livePlan.static s.table.openFrames
      + (b.residue + s.livePlan.static.repeatLen) / 65536 * s.livePlan.static.phases : Nat) : Int) ≤ distance line b s) :
    attributeContinuous n line s = (.farAhead, s) := by
  rw [attributeContinuous_eq hb]
  dsimp only
  rw [if_neg (by omega), if_neg (by omega), if_neg (by omega)]

/-- A line in the next frame (R72). -/
theorem attributeContinuous_next (hb : s.reg.next = some b)
    (hlow : (extents s.livePlan.static s.table.openFrames : Int) ≤ distance line b s)
    (hhigh : distance line b s < ((extents s.livePlan.static s.table.openFrames
      + (b.residue + s.livePlan.static.repeatLen) / 65536 * s.livePlan.static.phases : Nat) : Int)) :
    attributeContinuous n line s
      = openAndPlace n b ((distance line b s).toNat - extents s.livePlan.static s.table.openFrames) line.time s := by
  rw [attributeContinuous_eq hb]
  dsimp only
  rw [if_neg (by omega), if_neg (by omega), if_pos hhigh]

/-- A line in the extent of an open frame (R71). -/
theorem attributeContinuous_within {older younger : List Frame} {f : Frame} (hb : s.reg.next = some b)
    (ho : s.table.openFrames = older ++ f :: younger) (hlow : (extents s.livePlan.static older : Int) ≤ distance line b s)
    (hhigh : distance line b s < ((extents s.livePlan.static older + f.rows * s.livePlan.static.phases : Nat) : Int)) :
    attributeContinuous n line s
      = placeInOpen n older.length ((distance line b s).toNat - extents s.livePlan.static older) line.time s := by
  rw [attributeContinuous_eq hb]
  dsimp only
  rw [ho, extents_append, if_neg (by omega), if_pos (by omega), locate_append (by omega) (by omega)]

/-! ### The next frame opens for the line (R55, R72, R77) -/

/-- The line is placed in the frame that has opened for it, however many were open. -/
theorem openAndPlace_placed (n : Lane) (b : Boundary) (q : Nat) (time : Count) (s : State) :
    ∃ i, (openAndPlace n b q time s).1 = .placed i b.frame q
      ∧ i + 1 = (openAndPlace n b q time s).2.table.openFrames.length := by
  refine ⟨_, rfl, ?_⟩
  have hpos := List.length_pos_iff.mpr (openFrame_ne_nil b (fixNewest s))
  show _ = (placeLine n _ q time _).table.openFrames.length
  rw [placeLine_length]
  omega

/-- Frame 0 of the open frames keeps its end-seen flag when the newest is fixed. -/
theorem fixedNewest_endSeen (fs : List Frame) : (fixedNewest fs).head?.map Frame.endSeen = fs.head?.map Frame.endSeen := by
  cases fs with
  | nil => rfl
  | cons a rest =>
    obtain ⟨fixed, tail, h⟩ := fixedNewest_cons a rest
    rw [h]
    rfl

/-- A line opens the next frame behind at most three frames, whose extents are then fixed, and is placed in it. -/
theorem openAndPlace_room {q : Nat} {time : Count} (hroom : s.table.openFrames.length < 4) :
    let p := s.livePlan.static
    let passed := (fixedNewest s.table.openFrames).map (Frame.passBy p n)
    let t := (openAndPlace n b q time s).2
    ∃ g, t.table.openFrames = passed ++ [g]
      ∧ g = frameWithLine p n b (findFreeSlot p.slots s.table) q time (provisionalRows s.livePlan 0 g)
      ∧ t.reg.next = some (nextBoundary s.livePlan 0 g) ∧ t.reg.correction = 0
      ∧ ∀ o, passed.head? = some o → t.table.sealTimer
          = timerOnceSeen ((s.table.openFrames.head?.map Frame.endSeen).getD false) s.livePlan.run o s.table.sealTimer := by
  intro p passed t
  obtain ⟨next, c, hfix⟩ := fixNewest_eq s
  have hopen := openFrame_room (s := fixNewest s) (b := b) (by rw [hfix]; exact (fixedNewest_length _).trans_lt hroom)
  have ht : t = placeLine n ((openFrame b (fixNewest s)).table.openFrames.length - 1) q time (openFrame b (fixNewest s)) := rfl
  generalize openFrame b (fixNewest s) = v at hopen ht
  rw [hfix] at hopen
  have hlive : v.livePlan = s.livePlan := by rw [hopen]; rfl
  have hcorr : v.reg.correction = 0 := by rw [hopen]
  have htimer : v.table.sealTimer = s.table.sealTimer := by rw [hopen]
  generalize hslot : findFreeSlot p.slots s.table = slot
  have hframes : v.table.openFrames = fixedNewest s.table.openFrames
      ++ [{ newFrame b slot with rows := provisionalRows s.livePlan 0 (newFrame b slot) }] := by
    rw [hopen, ← hslot]
    rfl
  have hindex : v.table.openFrames.length - 1 = (fixedNewest s.table.openFrames).length := by
    rw [hframes, List.length_append]
    rfl
  obtain ⟨o, hhead⟩ := Option.isSome_iff_exists.mp (List.isSome_head?.mpr (List.append_ne_nil_of_right_ne_nil
    (fixedNewest s.table.openFrames)
    (List.cons_ne_nil { newFrame b slot with rows := provisionalRows s.livePlan 0 (newFrame b slot) } [])))
  have hcursor : (newFrame b slot).cursors[n] = .expects 0 := by simp [newFrame]
  obtain ⟨g, o', hcount, ⟨hrec, -⟩, ho', hplace⟩ := placeLine_eq (q := q) time hframes hcursor hhead
  obtain ⟨hrows, hreg⟩ := hrec ⟨rfl, rfl, nofun⟩
  have hg := lineCounted_newFrame hcount
  rw [hlive] at hg hplace ho'
  rw [hlive, hcorr] at hrows hreg
  rw [hreg, ← hindex, ← ht] at hplace
  refine ⟨g, by rw [hplace], hrows ▸ hg, by rw [hplace], by rw [hplace]; exact hcorr, fun h hh => ?_⟩
  have hsame : h = o' := by
    rw [List.head?_append, show List.head? (List.map (Frame.passBy s.livePlan.static n) (fixedNewest s.table.openFrames))
      = some h from hh] at ho'
    exact Option.some.inj ho'
  have hseen : (s.table.openFrames.head?.map Frame.endSeen).getD false = o.endSeen := by
    rw [← fixedNewest_endSeen]
    cases hfs : fixedNewest s.table.openFrames with
    | nil => rw [show passed = [] from congrArg (List.map _) hfs] at hh; cases hh
    | cons a rest => rw [hfs] at hhead; cases hhead; rfl
  rw [hplace, hseen, hsame, htimer]

/-! ### The line is placed in an open frame (R71, R80, R81, R112) -/

/-- Every frame of a list, moved past. -/
theorem passedBy_map (p : StaticPlan) (n : Lane) {fs : List Frame} {i : Nat} {h : Frame} (hi : fs[i]? = some h) :
    ∃ h', (fs.map (Frame.passBy p n))[i]? = some h' ∧ PassedBy p n h h' :=
  ⟨_, by rw [List.getElem?_map, hi]; rfl, passedBy_passBy p n h⟩

theorem getElem?_oldest {older younger : List Frame} {f : Frame} (ho : s.table.openFrames = older ++ f :: younger) :
    s.table.openFrames[older.length]? = some f := by
  rw [ho, List.getElem?_append_right (Nat.le_refl _), Nat.sub_self]
  rfl

/-- A line at or past its lane's cursor in the frame behind `older`. -/
theorem placeInOpen_counted {older younger : List Frame} {f : Frame} {c q : Nat} (time : Count)
    (ho : s.table.openFrames = older ++ f :: younger) (hc : f.cursors[n] = .expects c) (hle : c ≤ q) :
    let p := s.livePlan.static
    let passed := older.map (Frame.passBy p n)
    let r := placeInOpen n older.length q time s
    r.1 = .placed older.length f.number q
      ∧ ∃ g, r.2.table.openFrames = passed ++ g :: younger ∧ LineCounted p n c q time f g
        ∧ RowsFollow (younger = []) (q / p.phases) f g s r.2 ∧ (passed = [] → r.2.table.sealTimer = s.table.sealTimer)
        ∧ (∀ o o', older.head? = some o → passed.head? = some o' →
            r.2.table.sealTimer = timerOnceSeen o.endSeen s.livePlan.run o' s.table.sealTimer)
        ∧ r.2.table.queue = s.table.queue ∧ r.2.table.slots = s.table.slots ∧ r.2.lanes = s.lanes
        ∧ r.2.report = s.report := by
  intro p passed r
  have hr : r = (.placed older.length f.number q, placeLine n older.length q time s) :=
    placeInOpen_placed (getElem?_oldest ho) hc hle
  obtain ⟨o, hhead⟩ := Option.isSome_iff_exists.mp (List.isSome_head?.mpr
    (List.append_ne_nil_of_right_ne_nil older (List.cons_ne_nil f younger)))
  obtain ⟨g, o', hcount, hrows, ho', ht⟩ := placeLine_eq (q := q) time ho hc hhead
  obtain ⟨-, -, hseen, -⟩ := lineCounted_keeps hcount
  rw [hr]
  generalize placeLine n older.length q time s = t at hrows ht
  refine ⟨rfl, g, by rw [ht], hcount, hrows, fun hnil => ?_, fun a a' ha ha' => ?_, by rw [ht], by rw [ht], by rw [ht],
    by rw [ht]⟩
  · -- The line's frame is the oldest: its end-seen flag stays.
    obtain rfl : older = [] := List.map_eq_nil_iff.mp hnil
    cases hhead
    cases ho'
    rw [ht]
    show timerOnceSeen f.endSeen s.livePlan.run g s.table.sealTimer = _
    rw [← hseen, timerOnceSeen_same]
  · obtain ⟨rest, rfl⟩ := List.head?_eq_some_iff.mp ha
    cases hhead
    cases ha'
    cases ho'
    rw [ht]

/-! ### SINGLE mode (R75) -/

theorem attributeSingle_within {f : Frame} (ho : s.table.openFrames = [f]) (hlow : 0 ≤ (line.pos - f.start).toInt)
    (hhigh : (line.pos - f.start).toInt < ((f.rows * s.livePlan.static.phases : Nat) : Int)) :
    attributeSingle n line s = placeInOpen n 0 (line.pos - f.start).toInt.toNat line.time s := by
  have hin : beyondSingle s.livePlan.static line f = false := decide_eq_false (Int.not_le.mpr hhigh)
  unfold attributeSingle
  rw [ho]
  dsimp only
  rw [if_neg (Int.not_lt.mpr hlow), hin, if_neg Bool.false_ne_true]

theorem attributeSingle_beyond {f : Frame} (ho : s.table.openFrames = [f])
    (hfar : ((f.rows * s.livePlan.static.phases : Nat) : Int) ≤ (line.pos - f.start).toInt) :
    attributeSingle n line s = (.beyond, { s with
      table := { s.table with
        openFrames := [beyondFrame s.livePlan.static n f]
        sealTimer := timerOnceSeen f.endSeen s.livePlan.run (beyondFrame s.livePlan.static n f) s.table.sealTimer }
      reg := beyondReg f s.reg }) := by
  have hbeyond : beyondSingle s.livePlan.static line f = true := decide_eq_true hfar
  unfold attributeSingle
  rw [ho]
  dsimp only
  rw [if_neg (by omega), hbeyond, if_pos rfl]
  unfold passSingle
  rw [fixNewest_newest (older := []) ho]
  dsimp only
  rw [timerOnEndSeen_eq rfl]
  rfl

end

/-- Settles O27: the answer by the distance (`attributeContinuous_eq`), with the placing in an open frame by `placeLine_eq`,
and in the frame that opens by `openAndPlace_room`. -/
theorem linesAreAttributed : Obligations.LinesAreAttributed := by
  refine ⟨fun n line s b base hb => ?_, fun n line s f ho => ?_⟩
  · intro p fs hnone hsome extent next d r
    have hd : distance line b s = d := by
      have hbase : baseCount b s.table.openFrames = base := by
        cases hfs : s.table.openFrames with
        | nil => exact (hnone hfs).symm
        | cons f rest => exact (hsome f rest hfs).symm
      unfold distance
      rw [hbase]
    refine ⟨fun hneg => ?_, fun hfar => attributeContinuous_farAhead hb (hd ▸ hfar), fun hlow hhigh => ?_, ?_⟩
    · have hr : r = (behindAnswer fs, s) := attributeContinuous_behind hb (hd ▸ hneg)
      rw [hr]
      refine ⟨rfl, ?_, fun hno => ?_⟩
      · rintro ⟨f, rest, hfs, hf⟩
        show behindAnswer fs = _
        rw [hfs]
        exact if_pos hf
      · show behindAnswer fs = _
        cases hfs : fs with
        | nil => rfl
        | cons f rest => exact if_neg fun hf => hno ⟨f, rest, hfs, hf⟩
    · have hr : r = openAndPlace n b (d.toNat - extent fs) line.time s := by
        have := attributeContinuous_next (n := n) hb (hd ▸ hlow) (hd ▸ hhigh)
        rwa [hd] at this
      rw [hr]
      refine ⟨openAndPlace_placed n b _ line.time s, fun hroom => ?_⟩
      obtain ⟨g, hframes, hg, hnext, hcorr, htimer⟩ := openAndPlace_room (n := n) (b := b) (q := d.toNat - extent fs)
        (time := line.time) hroom
      generalize hrows : provisionalRows s.livePlan 0 g = rows at hg
      subst hg
      refine ⟨_, _, hframes, (List.length_map _).trans (fixedNewest_length _), fun i f hi => passedBy_map p n
        (fixedNewest_getElem? hi), rfl, rfl, rfl, rfl, ?_, hcorr, rfl, rfl, rfl, rfl, htimer⟩
      rw [hnext]
      exact rowsOnOpening rfl rfl rfl hrows.symm
    · intro older f younger hfs hlow hhigh q
      have hr : r = placeInOpen n older.length q line.time s := by
        have := attributeContinuous_within (n := n) hb hfs (hd ▸ hlow) (hd ▸ hhigh)
        rwa [hd] at this
      refine ⟨fun c hc hle => ?_, fun hlate => hr.trans (placeInOpen_late (getElem?_oldest hfs) hlate)⟩
      obtain ⟨hplaced, g, hframes, hcount, hrest⟩ := placeInOpen_counted line.time hfs hc hle
      rw [hr]
      exact ⟨hplaced, _, g, hframes, List.length_map _, fun i h hi => passedBy_map p n hi, hcount, hrest⟩
  · intro p d r
    refine ⟨fun hneg => ?_, fun hlow hhigh => ?_, fun hfar => ?_⟩
    · show attributeSingle n line s = _
      unfold attributeSingle
      rw [ho]
      exact if_pos hneg
    · have hr : r = placeInOpen n 0 d.toNat line.time s := attributeSingle_within ho hlow hhigh
      refine ⟨fun c hc hle => ?_, fun hlate => hr.trans (placeInOpen_late (getElem?_oldest (older := []) ho)
        (hlate.imp id ?_))⟩
      · obtain ⟨hplaced, g, hframes, hcount, hrows, htimer, -⟩ :=
          placeInOpen_counted (older := []) (q := d.toNat) line.time ho hc (by omega)
        rw [eq_self] at hrows
        rw [hr]
        exact ⟨hplaced, g, hframes, hcount, hrows, htimer rfl⟩
      · rintro ⟨c, hc, hlt⟩
        exact ⟨c, hc, by omega⟩
    · have hr : r = _ := attributeSingle_beyond ho hfar
      rw [hr]
      refine ⟨rfl, Frame.passBy p n { f with fixed := true }, _, passedBy_passBy _ _ _, rfl, rfl, rfl, rfl, rfl, rfl, rfl,
        fun hfix => ?_, fun hfix => ?_⟩
      · show beyondReg f s.reg = _
        unfold beyondReg
        rw [hfix]
        rfl
      · exact if_pos hfix

end Sys2Proof.Machine
end

section
/-! What a COMMIT does to the lanes, the open frames and the pending correction (R63, R165, R179). -/

namespace Sys2Proof.Machine

/-! ### Cut lines -/

/-- A frame into which `k` lines in flight have been cut one after the other (R34). -/
def Frame.cutBy (k : Nat) (f : Frame) : Frame :=
  if k = 0 then f else { f with damaged := min 65535 (f.damaged + k) }

theorem Frame.cutBy_with (k : Nat) (f : Frame) : ∃ d, f.cutBy k = { f with damaged := d } := by
  unfold cutBy
  split
  · exact ⟨f.damaged, rfl⟩
  · exact ⟨_, rfl⟩

theorem Frame.cutBy_damaged (k : Nat) (f : Frame) :
    f.cutBy k = { f with damaged := if k = 0 then f.damaged else min 65535 (f.damaged + k) } := by
  unfold cutBy
  split <;> rfl

theorem Frame.cutBy_number (k : Nat) (f : Frame) : (f.cutBy k).number = f.number := by
  obtain ⟨d, h⟩ := f.cutBy_with k
  rw [h]

theorem Frame.cutBy_cutBy (j k : Nat) (f : Frame) : (f.cutBy j).cutBy k = f.cutBy (j + k) := by
  rcases Nat.eq_zero_or_pos k with rfl | hk
  · rfl
  rcases Nat.eq_zero_or_pos j with rfl | hj
  · rw [Nat.zero_add]
    rfl
  unfold cutBy
  rw [if_neg (by omega), if_neg (by omega), if_neg (by omega)]
  dsimp only
  congr 1
  omega

/-- A frame with one cut line more, when its number is one of those that the line is in flight into. -/
def Frame.cutWhen (into : Count → Bool) (f : Frame) : Frame := f.cutBy (if into f.number then 1 else 0)

theorem Frame.cutWhen_none (fs : List Frame) : fs.map (Frame.cutWhen fun _ => false) = fs := List.map_id fs

/-- A cut line adds 1 to the damaged count of the frame it is in flight into (R34). -/
theorem cutLine_exact (n : Lane) (s : State) : cutLine n s = { s with table := { s.table with
    openFrames := s.table.openFrames.map (Frame.cutWhen fun number => s.lanes[n].context.takingInto number) } } := by
  have hnone (hno : ∀ number, s.lanes[n].context.takingInto number = false) : s = { s with table := { s.table with
      openFrames := s.table.openFrames.map (Frame.cutWhen fun number => s.lanes[n].context.takingInto number) } } := by
    rw [funext hno, Frame.cutWhen_none]
  unfold cutLine
  cases hc : s.lanes[n].context with
  | taking x frame q place =>
    show onFrame frame Frame.damage s = _
    refine congrArg (fun fs => ({ s with table := { s.table with openFrames := fs } } : State))
      (List.map_congr_left fun f _ => ?_)
    show (if f.number = frame then f.damage else f) = f.cutBy (if decide (frame = f.number) then 1 else 0)
    by_cases hf : f.number = frame
    · rw [if_pos hf, if_pos (decide_eq_true hf.symm)]
      rfl
    · rw [if_neg hf, decide_eq_false (Ne.symm hf)]
      rfl
  | _ =>
    rw [hc] at hnone
    exact hnone fun _ => rfl

/-! ### LANE_ENABLE (R179) -/

/-- A lane that the new plan adds to LANE_ENABLE. -/
def joins (old new : Plan) (n : Lane) : Bool := new.enabled n && !old.enabled n

/-- A lane that the new plan takes from LANE_ENABLE. -/
def leaves (old new : Plan) (n : Lane) : Bool := old.enabled n && !new.enabled n

/-- The lines in flight into a frame that the lanes of a list cut when they go OFF. -/
def cutsOf (old new : Plan) (lanes : Vector LaneTracker 8) (number : Count) (l : List Lane) : Nat :=
  (l.filter fun n => leaves old new n && lanes[n].context.takingInto number).length

theorem joins_of_leaves {old new : Plan} {n : Lane} (h : leaves old new n = true) : joins old new n = false := by
  unfold leaves at h
  unfold joins
  rw [Bool.and_eq_true, Bool.not_eq_true'] at h
  rw [h.2, Bool.false_and]

theorem cutsOf_cons (old new : Plan) (lanes : Vector LaneTracker 8) (number : Count) (n : Lane) (l : List Lane) :
    cutsOf old new lanes number (n :: l)
      = (if leaves old new n && lanes[n].context.takingInto number then 1 else 0) + cutsOf old new lanes number l := by
  unfold cutsOf
  rw [List.filter_cons]
  split
  · rw [List.length_cons, Nat.add_comm]
  · rw [Nat.zero_add]

theorem enableLane_def (old new : Plan) (n : Lane) (s : State) : enableLane old new n s =
    if joins old new n then onLane n LaneTracker.seeking s else if leaves old new n then laneOff n s else s := rfl

theorem underEnable_def (old new : Plan) (n : Lane) (l : LaneTracker) : l.underEnable old new n =
    if joins old new n then l.seeking else if leaves old new n then l.turnedOff else l := rfl

theorem enableLane_exact (old new : Plan) (n : Lane) (s : State) : enableLane old new n s = { s with
    lanes := s.lanes.set n (s.lanes[n].underEnable old new n)
    table := { s.table with
      openFrames := s.table.openFrames.map
        (Frame.cutWhen fun number => leaves old new n && s.lanes[n].context.takingInto number) } } := by
  have hstay (hno : leaves old new n = false) : s.table.openFrames.map
      (Frame.cutWhen fun number => leaves old new n && s.lanes[n].context.takingInto number) = s.table.openFrames := by
    rw [hno]
    exact Frame.cutWhen_none s.table.openFrames
  rw [enableLane_def, underEnable_def]
  by_cases hj : joins old new n = true
  · have hl : leaves old new n = false := by
      rw [← Bool.not_eq_true]
      intro hl
      rw [joins_of_leaves hl] at hj
      cases hj
    rw [hstay hl, if_pos hj, if_pos hj]
    rfl
  · rw [if_neg hj, if_neg hj]
    by_cases hl : leaves old new n = true
    · rw [if_pos hl, if_pos hl, hl, show laneOff n s = _ from congrArg (onLane n LaneTracker.turnedOff) (cutLine_exact n s)]
      rfl
    · rw [hstay (Bool.eq_false_of_not_eq_true hl), if_neg hl, if_neg hl, Fin.getElem_fin, Vector.set_getElem_self]

/-- What LANE_ENABLE does, lane after lane: the lanes of the list change, and the lines that those of them that leave have in
flight are counted damaged in their frames. -/
theorem foldl_enableLane_exact (old new : Plan) {l : List Lane} (hl : l.Nodup) (s : State) :
    ∃ ls, l.foldl (fun s n => enableLane old new n s) s = { s with
        lanes := ls
        table := { s.table with openFrames := s.table.openFrames.map fun f => f.cutBy (cutsOf old new s.lanes f.number l) } }
      ∧ ∀ n : Lane, ls[n] = if n ∈ l then s.lanes[n].underEnable old new n else s.lanes[n] := by
  induction l generalizing s with
  | nil => exact ⟨s.lanes, by simp [cutsOf, Frame.cutBy], fun n => (if_neg List.not_mem_nil).symm⟩
  | cons m l ih =>
    obtain ⟨hm, hl⟩ := List.nodup_cons.mp hl
    obtain ⟨ls, hfold, hls⟩ := ih hl (enableLane old new m s)
    rw [enableLane_exact] at hfold hls
    dsimp only at hfold hls
    have hkeep (n : Lane) (hn : n ≠ m) : (s.lanes.set m (s.lanes[m].underEnable old new m))[n] = s.lanes[n] :=
      Vector.getElem_set_ne m.isLt n.isLt fun e => hn (Fin.ext e.symm)
    have hcuts (number : Count) : cutsOf old new (s.lanes.set m (s.lanes[m].underEnable old new m)) number l
        = cutsOf old new s.lanes number l := by
      unfold cutsOf
      refine congrArg List.length (List.filter_congr fun n hn => ?_)
      rw [hkeep n fun e => hm (e ▸ hn)]
    refine ⟨ls, ?_, fun n => (hls n).trans ?_⟩
    · rw [List.foldl_cons, enableLane_exact, hfold, List.map_map]
      congr 2
      refine List.map_congr_left fun f _ => ?_
      rw [Function.comp_apply, Frame.cutWhen, Frame.cutBy_number, Frame.cutBy_cutBy, hcuts, ← cutsOf_cons]
    · by_cases hn : n = m
      · subst hn
        rw [if_neg hm, if_pos List.mem_cons_self]
        exact Vector.getElem_set_self n.isLt
      · rw [hkeep n hn]
        simp only [List.mem_cons, hn, false_or]

theorem getElem_ofFn_lane (g : Lane → LaneTracker) (n : Lane) : (Vector.ofFn g)[n] = g n := Vector.getElem_ofFn n.isLt

/-- The state once every lane has taken its place under a new LANE_ENABLE. -/
def lanesEnabled (old new : Plan) (s : State) : State :=
  { s with
    lanes := Vector.ofFn fun n => s.lanes[n].underEnable old new n
    table := { s.table with
      openFrames := s.table.openFrames.map fun f => f.cutBy (cutsOf old new s.lanes f.number allLanes) } }

theorem foldl_allLanes (old new : Plan) (s : State) :
    allLanes.foldl (fun s n => enableLane old new n s) s = lanesEnabled old new s := by
  obtain ⟨ls, hfold, hls⟩ := foldl_enableLane_exact old new (l := allLanes) (by decide) s
  have hlanes : ls = Vector.ofFn fun n => s.lanes[n].underEnable old new n := by
    ext1 i hi
    rw [Vector.getElem_ofFn]
    exact (hls ⟨i, hi⟩).trans (if_pos (mem_allLanes _))
  rw [hfold, hlanes]
  rfl

/-- A lane under a new LANE_ENABLE has a line in flight only if it stays as it is. -/
theorem takingInto_underEnable (old new : Plan) (n : Lane) (l : LaneTracker) (number : Count) :
    (l.underEnable old new n).context.takingInto number
      = (!joins old new n && !leaves old new n && l.context.takingInto number) := by
  rw [underEnable_def]
  cases joins old new n with
  | true => rfl
  | false =>
    cases leaves old new n with
    | true => rfl
    | false => rfl

/-- Filters that are apart and together make up a third. -/
theorem length_filter_add {α : Type} {a b c : α → Bool} (l : List α) (hc : ∀ x, c x = (a x || b x))
    (hab : ∀ x, a x = true → b x = false) : (l.filter a).length + (l.filter b).length = (l.filter c).length := by
  simp only [← List.countP_eq_length_filter]
  induction l with
  | nil => rfl
  | cons x l ih =>
    rw [List.countP_cons, List.countP_cons, List.countP_cons, hc, ← ih]
    cases ha : a x with
    | false => rw [Bool.false_or, if_neg Bool.false_ne_true]; omega
    | true => rw [hab x ha, Bool.true_or, if_pos rfl, if_neg Bool.false_ne_true]; omega

/-- The lines in flight into a frame when a COMMIT comes, other than those of lanes that join: those of the lanes that leave,
and those that a seal then cuts. -/
theorem cuts_add_linesInFlight (old new : Plan) (lanes : Vector LaneTracker 8) (number : Count) :
    cutsOf old new lanes number allLanes
        + linesInFlight number (Vector.ofFn fun n : Lane => lanes[n].underEnable old new n)
      = (allLanes.filter fun n => !joins old new n && lanes[n].context.takingInto number).length := by
  refine length_filter_add allLanes (fun n => ?_) fun n hn => ?_
  · rw [getElem_ofFn_lane, takingInto_underEnable]
    cases hl : leaves old new n with
    | true => rw [joins_of_leaves hl]; cases lanes[n].context.takingInto number <;> rfl
    | false => cases joins old new n <;> rfl
  · rw [getElem_ofFn_lane, takingInto_underEnable]
    rw [Bool.and_eq_true] at hn
    rw [hn.1, Bool.not_true, Bool.and_false, Bool.false_and]

/-! ### The pending correction and N (R63) -/

/-- The pending correction after a COMMIT (R63). -/
def committedCorrection (old new : Plan) (c : Int) : Int :=
  if old.run.markMaxStep = new.run.markMaxStep then c else limitStep new.run.markMaxStep c

/-- The rows of a frame after a COMMIT, N of the newest being recomputed while provisional (R63). -/
def committedRows (old new : Plan) (c : Int) (newest : Prop) [Decidable newest] (f : Frame) : Nat :=
  if newest ∧ f.fixed = false ∧ old.run.markMaxStep ≠ new.run.markMaxStep
  then provisionalRows new (committedCorrection old new c) f else f.rows

/-- What MARK_MAX_STEP does at once, in a state that already has the new plan. -/
theorem applyMaxStep_exact (old new : Plan) {s : State} (hlive : s.livePlan = new) :
    ∃ fs next, applyMaxStep old new s = { s with
        table := { s.table with openFrames := fs }
        reg := { s.reg with correction := committedCorrection old new s.reg.correction, next := next } }
      ∧ fs.length = s.table.openFrames.length
      ∧ ∀ (i : Nat) (f : Frame), s.table.openFrames[i]? = some f → fs[i]? = some { f with
          rows := committedRows old new s.reg.correction (i + 1 = s.table.openFrames.length) f } := by
  unfold applyMaxStep committedRows committedCorrection
  by_cases hsame : old.run.markMaxStep = new.run.markMaxStep
  · rw [if_pos hsame, if_pos hsame]
    refine ⟨s.table.openFrames, s.reg.next, rfl, rfl, fun i f hi => ?_⟩
    rw [if_neg fun ⟨_, _, hne⟩ => hne hsame]
    exact hi
  · rw [if_neg hsame, if_neg hsame]
    generalize hc : limitStep new.run.markMaxStep s.reg.correction = c
    rcases List.eq_nil_or_concat s.table.openFrames with ho | ⟨older, a, ho⟩
    · refine ⟨s.table.openFrames, s.reg.next, ?_, rfl, fun i f hi => by rw [ho] at hi; cases hi⟩
      have hnone : recompute (setCorrection c s) = setCorrection c s := by
        unfold recompute
        rw [show (setCorrection c s).table.openFrames = [] from ho]
        rfl
      rw [hnone]
      rfl
    · rw [List.concat_eq_append] at ho
      have hopen : (setCorrection c s).table.openFrames = older ++ [a] := ho
      have hlive' : (setCorrection c s).livePlan = new := hlive
      rw [recompute_newest hopen, hlive']
      cases hfix : a.fixed with
      | true =>
        refine ⟨s.table.openFrames, s.reg.next, rfl, rfl, fun i f hi => ?_⟩
        have hno : ¬(i + 1 = s.table.openFrames.length ∧ f.fixed = false ∧ old.run.markMaxStep ≠ new.run.markMaxStep) := by
          rintro ⟨hlast, hprov, -⟩
          rw [ho, List.length_append, List.length_singleton, Nat.add_right_cancel_iff] at hlast
          rw [ho, List.getElem?_append_right (Nat.le_of_eq hlast.symm), hlast, Nat.sub_self] at hi
          cases hi
          rw [hfix] at hprov
          cases hprov
        rw [if_neg hno]
        exact hi
      | false =>
        refine ⟨_, _, rfl, by rw [ho]; simp, fun i f hi => ?_⟩
        have hlt := (List.getElem?_eq_some_iff.mp hi).1
        rw [ho, List.length_append, List.length_singleton] at hlt
        rw [ho] at hi
        rcases Nat.lt_or_eq_of_le (Nat.le_of_lt_succ hlt) with hlt | rfl
        · rw [List.getElem?_append_left hlt] at hi ⊢
          rw [if_neg fun h => by rw [ho, List.length_append, List.length_singleton] at h; omega]
          exact hi
        · rw [List.getElem?_append_right (Nat.le_refl _), Nat.sub_self] at hi ⊢
          cases hi
          rw [if_pos ⟨by rw [ho]; simp, hfix, hsame⟩, hfix]
          rfl

end Sys2Proof.Machine
end

section
/-! COMMIT (R63, R161, R162, R165, R179). -/

namespace Sys2Proof.Machine

/-! ### What leaves the registration, the lanes and the open frames -/

theorem settle_reg (s : State) : (settle s).reg = s.reg := by
  obtain ⟨c, q, sl, htake⟩ := takeUpEach_besideFrames s.table.queue.length s
  have hdrain (u : State) : (drainTest u).reg = u.reg := by
    unfold drainTest completeDrain answerStop
    split
    · dsimp only
      repeat' split
      all_goals rfl
    · rfl
  unfold settle
  rw [hdrain]
  unfold takeUp
  rw [htake]
  rfl

theorem settle_notDraining {s : State} (h : s.capture.device ≠ .draining) :
    ∃ c q sl, settle s = besideFrames s.held s.lanes c q sl s := by
  obtain ⟨c, q, sl, htake⟩ := takeUpEach_besideFrames s.table.queue.length s
  refine ⟨c, q, sl, ?_⟩
  unfold settle takeUp
  rw [htake]
  exact if_neg fun hd => h hd.1

/-- The end of a COMMIT that takes a plan: a changed ATTN_THRESHOLD, what follows the seals, and the answer. -/
def commitEnds (tag : Byte) (old new : Plan) (s : State) : State :=
  present (answer tag rDone (settle (applyThreshold old new s)))

section
variable (tag : Byte) (old new : Plan) (s : State)

theorem applyThreshold_eq : ∃ a, applyThreshold old new s = { s with report := { s.report with attn := a } } := by
  unfold applyThreshold
  split
  · exact ⟨s.report.attn, rfl⟩
  · exact ⟨_, rfl⟩

theorem commitEnds_reg : (commitEnds tag old new s).reg = s.reg := by
  obtain ⟨a, h⟩ := applyThreshold_eq old new s
  unfold commitEnds
  rw [present_reg]
  show (settle (applyThreshold old new s)).reg = _
  rw [settle_reg, h]

theorem commitEnds_sealsOn : SealsOn s (commitEnds tag old new s) := by
  obtain ⟨a, h⟩ := applyThreshold_eq old new s
  have hthreshold : SealsOn s (applyThreshold old new s) := by
    rw [h]
    exact .of_queue (Nat.le_refl _) rfl
  have hanswer (u : State) : SealsOn u (answer tag rDone u) := .of_queue (Nat.le_refl _) rfl
  exact hthreshold.trans ((settle_sealsOn _).trans ((hanswer _).trans (present_sealsOn _)))

/-- In a device that does not drain, the end of a COMMIT leaves the lanes, the open frames and capture control. -/
theorem commitEnds_still (h : s.capture.device ≠ .draining) :
    (commitEnds tag old new s).lanes = s.lanes ∧ (commitEnds tag old new s).table.openFrames = s.table.openFrames
      ∧ (commitEnds tag old new s).capture = s.capture := by
  obtain ⟨a, ht⟩ := applyThreshold_eq old new s
  have hd : (applyThreshold old new s).capture.device ≠ .draining := by rwa [ht]
  obtain ⟨c, q, sl, hs⟩ := settle_notDraining hd
  unfold commitEnds
  rw [present_lanes, present_table, present_capture, hs, ht]
  exact ⟨rfl, rfl, rfl⟩

/-- The end of a COMMIT leaves the plan that was taken, and the counts. -/
theorem commitEnds_plan : (commitEnds tag old new s).plan.live = s.plan.live
    ∧ (commitEnds tag old new s).plan.generation = s.plan.generation
    ∧ (commitEnds tag old new s).plan.shadow = s.plan.shadow
    ∧ (commitEnds tag old new s).report.producer = s.report.producer
    ∧ (commitEnds tag old new s).report.consumer = s.report.consumer := by
  obtain ⟨a, ht⟩ := applyThreshold_eq old new s
  have hchosen := present_chosen (answer tag rDone (settle (applyThreshold old new s)))
  have hinner := settle_inner (applyThreshold old new s)
  unfold commitEnds
  rw [present_plan, hchosen.producer, hchosen.consumer]
  refine ⟨hinner.live.trans ?_, hinner.generation.trans ?_, hinner.shadow.trans ?_, hinner.producer.trans ?_,
    hinner.consumer.trans ?_⟩
  all_goals rw [ht]

end

theorem lanesOff_reg (s : State) : (lanesOff s).reg = s.reg := by
  unfold lanesOff
  generalize allLanes = l
  induction l generalizing s with
  | nil => rfl
  | cons n l ih =>
    rw [List.foldl_cons, ih, laneOff, cutLine_exact]
    rfl

/-- A seal by the lanes, of a frame whose N is fixed, leaves the pending correction (R109, R110). -/
theorem sealAndTurn_correction {s : State} (h : sealTest s = true) :
    (sealAndTurn .lanes s).reg.correction = s.reg.correction := by
  cases ho : s.table.openFrames with
  | nil => unfold sealTest at h; rw [ho] at h; cases h
  | cons f rest =>
    have hfixed : f.fixed = true := by
      unfold sealTest at h
      rw [ho] at h
      exact (Bool.and_eq_true_iff.mp h).1
    obtain ⟨b, r, hseal, hr⟩ := sealOldest_cons .lanes ho
    obtain ⟨ls, hframe⟩ := sealFrame_eq .lanes { f with fixed := b } rest
      { s with table := { s.table with openFrames := { f with fixed := b } :: rest }, reg := r }
    have henqueue (u : State) (g : Frame) : (enqueueSealed .lanes g u).reg = u.reg := by
      unfold enqueueSealed
      split <;> rfl
    have hend (u : State) : (singleEnd u).reg = u.reg := by
      unfold singleEnd
      split
      · exact lanesOff_reg _
      · rfl
    obtain ⟨t, hload⟩ := loadSealTimer_cases (singleEnd (sealOldest .lanes s))
    unfold sealAndTurn
    rw [hload]
    show (singleEnd _).reg.correction = _
    rw [hend, hseal, hframe, henqueue, hr (.inl hfixed)]
    rfl

theorem evalSealTest_correction (s : State) : (evalSealTest s).reg.correction = s.reg.correction := by
  unfold evalSealTest
  generalize s.table.openFrames.length = fuel
  induction fuel generalizing s with
  | zero => rfl
  | succ k ih =>
    unfold cascade
    split
    next h => rw [ih, sealAndTurn_correction h]
    · rfl

/-! ### The plan is taken (R165) -/

/-- The plan is taken, and the last-allocated slot and the counts follow. -/
def planRinged (old new : Plan) (s : State) : State := applyRing old new (applyPlanes old new (installPlan new s))

theorem planRinged_cases (old new : Plan) (s : State) :
    ∃ report last, planRinged old new s
        = { installPlan new s with report := report, table := { s.table with lastAllocated := last } }
      ∧ (¬(new.static.ringBase = old.static.ringBase ∧ new.static.ringEntries = old.static.ringEntries) →
          report.producer = 0 ∧ report.consumer = 0)
      ∧ (new.static.ringBase = old.static.ringBase → new.static.ringEntries = old.static.ringEntries →
          report.producer = s.report.producer ∧ report.consumer = s.report.consumer) := by
  have hplanes : ∃ last, applyPlanes old new (installPlan new s)
      = { installPlan new s with table := { s.table with lastAllocated := last } } := by
    unfold applyPlanes
    split
    · exact ⟨s.table.lastAllocated, rfl⟩
    · exact ⟨_, rfl⟩
  obtain ⟨last, hlast⟩ := hplanes
  have hring : sameRing old.static new.static = true
      ↔ new.static.ringBase = old.static.ringBase ∧ new.static.ringEntries = old.static.ringEntries := by
    unfold sameRing
    rw [Bool.and_eq_true, decide_eq_true_eq, decide_eq_true_eq, eq_comm, eq_comm (b := new.static.ringEntries)]
  unfold planRinged applyRing
  rw [hlast]
  by_cases hsame : sameRing old.static new.static = true
  · rw [if_pos hsame]
    exact ⟨s.report, last, rfl, fun hno => absurd (hring.mp hsame) hno, fun _ _ => ⟨rfl, rfl⟩⟩
  · rw [if_neg hsame]
    exact ⟨_, last, rfl, fun _ => ⟨rfl, rfl⟩, fun hbase hentries => absurd (hring.mpr ⟨hbase, hentries⟩) hsame⟩

/-- The state in which LANE_ENABLE acts, with the plan taken and MARK_MAX_STEP acted on. -/
theorem planInstalled_exact (old new : Plan) (s : State) :
    ∃ fs next report last, planInstalled old new s = { installPlan new s with
        report := report
        table := { s.table with openFrames := fs, lastAllocated := last }
        reg := { s.reg with correction := committedCorrection old new s.reg.correction, next := next } }
      ∧ fs.length = s.table.openFrames.length
      ∧ (∀ (i : Nat) (f : Frame), s.table.openFrames[i]? = some f → fs[i]? = some { f with
          rows := committedRows old new s.reg.correction (i + 1 = s.table.openFrames.length) f })
      ∧ (¬(new.static.ringBase = old.static.ringBase ∧ new.static.ringEntries = old.static.ringEntries) →
          report.producer = 0 ∧ report.consumer = 0)
      ∧ (new.static.ringBase = old.static.ringBase → new.static.ringEntries = old.static.ringEntries →
          report.producer = s.report.producer ∧ report.consumer = s.report.consumer) := by
  obtain ⟨report, last, hringed, hchanged, hsame⟩ := planRinged_cases old new s
  obtain ⟨fs, next, hstep, hlen, hframes⟩ := applyMaxStep_exact old new (s := planRinged old new s) (by rw [hringed]; rfl)
  rw [hringed] at hstep hlen hframes
  refine ⟨fs, next, report, last, ?_, hlen, hframes, hchanged, hsame⟩
  show applyMaxStep old new (planRinged old new s) = _
  rw [hringed, hstep]
  rfl

/-! ### The command (R161, R162) -/

section
variable {m : Mailbox} {s : State} {old : Plan}

theorem commit_performed (h : Commanded m s) (hp : s.plan.pendingCommand = none) (hd : s.capture.device ≠ .draining) :
    exec (.commit m) s = .next (present (answerWith m.tag (commitPlan (readPlan (s.withMailbox 0x01 m).plan.shadow)
      (s.withMailbox 0x01 m)))) := by
  have hb : busy .commit s = false := by
    unfold busy
    rw [hp]
    rfl
  have ha : stateAllows .commit s.capture.device s.capture.drainCause = true := by
    cases hs : s.capture.device with
    | draining => exact absurd hs hd
    | _ => rfl
  exact congrArg Host.Outcome.next (offerMailbox_allowed (c := .commit) h hb ha)

/-- The state after a later COMMIT that is taken. -/
def committed (old new : Plan) (m : Mailbox) (s : State) : State :=
  commitEnds m.tag old new (applyLaneEnable old new (planInstalled old new (s.withMailbox 0x01 m)))

/-- A later COMMIT that is taken (R165). -/
theorem commit_taken (h : Commanded m s) (hp : s.plan.pendingCommand = none) (hd : s.capture.device ≠ .draining)
    (hlive : s.plan.live = some old) {p : Plan} (hread : readPlan (s.withMailbox 0x01 m).plan.shadow = p)
    (hstatic : (s.capture.device = .armed ∨ s.capture.device = .running) → p.static = old.static)
    (hpass : failedCheck s p = none) (hnew : p ≠ old) :
    exec (.commit m) s = .next (committed old p m s) := by
  have hcommit : commitPlan p (s.withMailbox 0x01 m) = (takePlan old p (s.withMailbox 0x01 m), some rDone) := by
    have hlive' : (s.withMailbox 0x01 m).plan.live = some old := hlive
    have hpass' : failedCheck (s.withMailbox 0x01 m) p = none := hpass
    have hrun : ¬(((s.withMailbox 0x01 m).capture.device = .armed ∨ (s.withMailbox 0x01 m).capture.device = .running)
        ∧ p.static ≠ old.static) := fun hr => hr.2 (hstatic hr.1)
    unfold commitPlan
    rw [hlive']
    dsimp only
    rw [if_neg hrun, hpass']
    exact if_neg hnew
  rw [commit_performed h hp hd, hread, hcommit]
  rfl

end

/-! ### LANE_ENABLE and the seals that follow (R110, R179) -/

section
variable {old new : Plan} {u : State} {o : Frame} {rest : List Frame}

theorem applyLaneEnable_capturing (hd : u.capture.device = .armed ∨ u.capture.device = .running) :
    applyLaneEnable old new u
      = if allLanes.any (leaves old new) then evalSealTest (lanesEnabled old new u) else lanesEnabled old new u := by
  unfold applyLaneEnable
  rw [if_pos hd]
  dsimp only
  rw [foldl_allLanes]
  rfl

/-- A lane in LANE_ENABLE of both plans stays as it is. -/
theorem underEnable_stays {n : Lane} (ho : old.enabled n = true) (hn : new.enabled n = true) (l : LaneTracker) :
    l.underEnable old new n = l := by
  unfold LaneTracker.underEnable
  rw [ho, hn]
  rfl

/-- A lane of the new LANE_ENABLE that is LOCKED under it was in the old one, and LOCKED. -/
theorem underEnable_locked {n : Lane} {l : LaneTracker} (hn : new.enabled n = true)
    (hlocked : (l.underEnable old new n).state = .locked) : old.enabled n = true ∧ l.state = .locked := by
  cases ho : old.enabled n with
  | true =>
    rw [underEnable_stays ho hn] at hlocked
    exact ⟨rfl, hlocked⟩
  | false =>
    unfold LaneTracker.underEnable at hlocked
    rw [ho, hn] at hlocked
    cases hlocked

/-- No seal follows when no lane is removed, with no frame open, or while a lane that stays is awaited (R110). -/
theorem applyLaneEnable_noSeal (hd : u.capture.device = .armed ∨ u.capture.device = .running) (hlive : u.livePlan = new)
    (h : (∀ n, leaves old new n = false) ∨ u.table.openFrames = []
      ∨ ∃ o rest, u.table.openFrames = o :: rest
          ∧ (o.fixed = false ∨ ∃ n : Lane, (old.enabled n = true ∧ new.enabled n = true ∧ u.lanes[n].state = .locked)
              ∧ o.passed.getLsbD n.val = false)) :
    applyLaneEnable old new u = lanesEnabled old new u := by
  rw [applyLaneEnable_capturing hd]
  split
  next hany =>
    refine evalSealTest_of_not ?_
    rcases h with h | ho | ⟨o, rest, ho, hwait⟩
    · obtain ⟨n, -, hn⟩ := List.any_eq_true.mp hany
      rw [h n] at hn
      cases hn
    · unfold sealTest lanesEnabled
      rw [ho]
      rfl
    · obtain ⟨d, hcut⟩ := o.cutBy_with (cutsOf old new u.lanes o.number allLanes)
      have hopen : (lanesEnabled old new u).table.openFrames
          = { o with damaged := d } :: rest.map fun f => f.cutBy (cutsOf old new u.lanes f.number allLanes) := by
        unfold lanesEnabled
        dsimp only
        rw [ho, List.map_cons, hcut]
      refine sealTest_awaited hopen (hwait.imp id ?_)
      rintro ⟨n, ⟨hold, hnew, hlocked⟩, hpassed⟩
      refine ⟨n, nofun, by rw [show (lanesEnabled old new u).livePlan = new from hlive]; exact hnew, ?_, hpassed⟩
      unfold lanesEnabled
      rw [getElem_ofFn_lane, underEnable_stays hold hnew]
      exact hlocked
  · rfl

theorem Frame.sealedWith_cutBy (p : Plan) (j k : Nat) (b : Bool) (f : Frame) :
    (f.cutBy j).sealedWith p k b = f.sealedWith p (j + k) b := by
  have hclose := Frame.closeAll_with p f (if j = 0 then f.damaged else min 65535 (f.damaged + j)) f.fixed
  have hsum : min 65535 ((if j = 0 then f.damaged else min 65535 (f.damaged + j)) + k) = min 65535 (f.damaged + (j + k)) := by
    split <;> omega
  rw [Frame.cutBy_damaged]
  unfold Frame.sealedWith
  dsimp only
  rw [hsum]
  exact congrArg (fun g : Frame => { g with damaged := min 65535 (f.damaged + (j + k)), fixed := b }) hclose

theorem lanesStatus_cutBy (p : Plan) (j : Nat) (f : Frame) : lanesStatus p (f.cutBy j) = lanesStatus p f := by
  obtain ⟨d, h⟩ := f.cutBy_with j
  have hclose := Frame.closeAll_with p f d f.fixed
  unfold lanesStatus
  rw [h, show Frame.closeAll p { f with damaged := d } = _ from hclose]

/-- A frame that waited for the removed lanes alone seals by its lanes (R110, R111). -/
theorem applyLaneEnable_seals {k : Fin 32} (hd : u.capture.device = .armed ∨ u.capture.device = .running)
    (hlive : u.livePlan = new) (hleaves : ∃ n, leaves old new n = true) (ho : u.table.openFrames = o :: rest)
    (hfixed : o.fixed = true) (hk : o.slot = some k)
    (hpassed : ∀ n : Lane, old.enabled n = true ∧ new.enabled n = true ∧ u.lanes[n].state = .locked →
      o.passed.getLsbD n.val = true) :
    ∃ e ∈ slotEntries (applyLaneEnable old new u).table.queue, SealedEntry new (lanesStatus new o)
      (allLanes.filter fun n => !joins old new n && u.lanes[n].context.takingInto o.number).length o e := by
  obtain ⟨n, hn⟩ := hleaves
  rw [applyLaneEnable_capturing hd, if_pos (List.any_eq_true.mpr ⟨n, mem_allLanes n, hn⟩)]
  have hnumber := o.cutBy_number (cutsOf old new u.lanes o.number allLanes)
  have hcut := o.cutBy_with (cutsOf old new u.lanes o.number allLanes)
  have hsealed := o.sealedWith_cutBy new (cutsOf old new u.lanes o.number allLanes)
    (linesInFlight o.number (lanesEnabled old new u).lanes) true
  have hstatus := lanesStatus_cutBy new (cutsOf old new u.lanes o.number allLanes) o
  have hopen : (lanesEnabled old new u).table.openFrames = o.cutBy (cutsOf old new u.lanes o.number allLanes)
      :: rest.map fun f => f.cutBy (cutsOf old new u.lanes f.number allLanes) := by
    unfold lanesEnabled
    dsimp only
    rw [ho, List.map_cons]
  rw [show cutsOf old new u.lanes o.number allLanes + linesInFlight o.number (lanesEnabled old new u).lanes = _ from
    cuts_add_linesInFlight old new u.lanes o.number] at hsealed
  have hplan : (lanesEnabled old new u).livePlan = new := hlive
  have hlanes (m : Lane) : (lanesEnabled old new u).lanes[m] = u.lanes[m].underEnable old new m := getElem_ofFn_lane _ m
  have hlen : (lanesEnabled old new u).table.openFrames.length = rest.length + 1 := by
    rw [hopen, List.length_cons, List.length_map]
  generalize o.cutBy (cutsOf old new u.lanes o.number allLanes) = o' at hnumber hcut hsealed hstatus hopen
  generalize lanesEnabled old new u = w at hopen hsealed hplan hlanes hlen
  obtain ⟨d, rfl⟩ := hcut
  have htest : sealTest w = true := by
    refine sealTest_passed hopen hfixed fun m hm hlocked => hpassed m ?_
    rw [hplan] at hm
    rw [hlanes] at hlocked
    obtain ⟨hold, hlocked⟩ := underEnable_locked hm hlocked
    exact ⟨hold, hm, hlocked⟩
  have hseal := sealOldest_lanes hopen hfixed hk
  have hentry : slotEntryOf (o.sealedWith new (allLanes.filter fun n => !joins old new n
      && u.lanes[n].context.takingInto o.number).length true) k (lanesStatus new o)
        (handed new { o with damaged := d }) ∈ slotEntries (sealOldest .lanes w).table.queue := by
    rw [mem_slotEntries, hseal, ← hsealed, ← hstatus, ← hplan]
    exact List.mem_append_right _ (List.mem_singleton_self _)
  have hon : SealsOn (sealOldest .lanes w) (evalSealTest w) := by
    unfold evalSealTest
    rw [hlen]
    unfold cascade
    rw [if_pos htest]
    exact (singleEnd_sealsOn _).trans ((loadSealTimer_sealsOn _).trans (cascade_sealsOn _ _))
  obtain ⟨e, he, hcore⟩ := hon.entries _ hentry
  exact ⟨e, he, sealedEntry_core hcore (sealedEntry_slotEntryOf _ _ _ _ hk)⟩

end

end Sys2Proof.Machine
end

section
/-! The obligation on good COMMITs, a lemma for each of its three parts (R63, R161, R162, R165, R179). -/

namespace Sys2Proof.Machine

section
variable {m : Mailbox} {s : State} {old p : Plan}

/-- A plan that passes check 12 raises no attention for an empty ring. -/
theorem attnCondition_reset (h : failedCheck s p = none) :
    attnCondition (some p) { s.report with producer := 0, consumer := 0, attnTimer := .idle, producerOwed := true }
      = false := by
  have h12 : check12 p = true := firstFailing_none h _ (by simp [planChecks])
  have hthreshold : 1 ≤ p.run.attnThreshold := by
    simp only [check12, inRange, Bool.and_eq_true, decide_eq_true_eq] at h12
    omega
  unfold attnCondition ReportUnit.unconsumed
  simp
  omega

/-- The first good COMMIT (R155, R164, R165). -/
theorem commit_first (h : Commanded m s) (hp : s.plan.pendingCommand = none) (hlive : s.plan.live = none)
    (hd : s.capture.device = .dormant) (hread : readPlan (s.withMailbox 0x01 m).plan.shadow = p)
    (hpass : failedCheck s p = none) :
    exec (.commit m) s = .next (present (answer m.tag rDone { s.withMailbox 0x01 m with
      plan := { (s.withMailbox 0x01 m).plan with live := some p, generation := min 65535 (s.plan.generation + 1) }
      capture := { s.capture with device := .stopped }
      table := { s.table with lastAllocated := none }
      report := { s.report with producer := 0, consumer := 0, attnTimer := .idle, producerOwed := true, attn := false } })) := by
  have hcommit : commitPlan p (s.withMailbox 0x01 m) = (takeFirstPlan p (s.withMailbox 0x01 m), some rDone) := by
    have hlive' : (s.withMailbox 0x01 m).plan.live = none := hlive
    have hpass' : failedCheck (s.withMailbox 0x01 m) p = none := hpass
    unfold commitPlan
    rw [hlive']
    dsimp only
    rw [hpass']
  rw [commit_performed h hp (by rw [hd]; exact nofun), hread, hcommit, ← attnCondition_reset hpass]
  rfl

/-- A later good COMMIT: the plan, the counts, the origin, and a STOPPED device's lanes and slots (R165). -/
theorem commit_later (m : Mailbox) (s : State) (old p : Plan) :
    let c := s.withMailbox 0x01 m
    let t := committed old p m s
    t.plan.live = some p ∧ t.plan.generation = min 65535 (s.plan.generation + 1) ∧ t.plan.shadow = c.plan.shadow
      ∧ Answered m.tag rDone t.capture.device t ∧ t.reg.origin = s.reg.origin
      ∧ (s.capture.device = .stopped → (s.patch = .idle → firstPatching s.table = none) →
          t.lanes = s.lanes ∧ t.table.slots = s.table.slots)
      ∧ (¬(p.static.ringBase = old.static.ringBase ∧ p.static.ringEntries = old.static.ringEntries) →
          t.report.producer = 0 ∧ t.report.consumer = 0)
      ∧ (p.static.ringBase = old.static.ringBase → p.static.ringEntries = old.static.ringEntries →
          t.report.producer = s.report.producer ∧ t.report.consumer = s.report.consumer) := by
  intro c t
  obtain ⟨fs, next, report, last, hu, -, -, hchanged, hsame⟩ := planInstalled_exact old p c
  obtain ⟨hplan, hgeneration, hshadow, hproducer, hconsumer⟩ :=
    commitEnds_plan m.tag old p (applyLaneEnable old p (planInstalled old p c))
  have hinner := applyLaneEnable_inner old p (planInstalled old p c)
  have hcounts : t.report.producer = report.producer ∧ t.report.consumer = report.consumer := by
    refine ⟨hproducer.trans (hinner.producer.trans ?_), hconsumer.trans (hinner.consumer.trans ?_)⟩
    all_goals rw [hu]
  refine ⟨hplan.trans (hinner.live.trans (by rw [hu]; rfl)), hgeneration.trans (hinner.generation.trans (by rw [hu]; rfl)),
    hshadow.trans (hinner.shadow.trans (by rw [hu]; rfl)), ?_, ?_, fun hd hquiet => ?_, fun hring => ?_,
    fun hbase hentries => ?_⟩
  · have hdevice : t.capture = (settle (applyThreshold old p (applyLaneEnable old p (planInstalled old p c)))).capture :=
      present_capture _
    rw [hdevice]
    exact answered_present _ _ _
  · show (commitEnds m.tag old p (applyLaneEnable old p (planInstalled old p c))).reg.origin = _
    rw [commitEnds_reg, (applyLaneEnable_sheds old p _).origin, hu]
    rfl
  · have hlane : applyLaneEnable old p (planInstalled old p c) = planInstalled old p c := by
      refine if_neg ?_
      rw [hu, show (installPlan p c).capture.device = .stopped from hd]
      exact fun h => h.elim nofun nofun
    obtain ⟨a, hthreshold⟩ := applyThreshold_eq old p (planInstalled old p c)
    have hdevice : (applyThreshold old p (planInstalled old p c)).capture.device = .stopped := by rw [hthreshold, hu]; exact hd
    have hsettle : settle (applyThreshold old p (planInstalled old p c)) = applyThreshold old p (planInstalled old p c) := by
      refine settle_fixed ?_ fun h => by rw [hdevice] at h; exact absurd h.1 nofun
      rw [hthreshold, hu]
      exact hquiet
    have ht : t = present (answer m.tag rDone (applyThreshold old p (planInstalled old p c))) := by
      show present (answer m.tag rDone (settle (applyThreshold old p (applyLaneEnable old p (planInstalled old p c))))) = _
      rw [hlane, hsettle]
    rw [ht, present_lanes, present_table, hthreshold, hu]
    exact ⟨rfl, rfl⟩
  · rw [hcounts.1, hcounts.2]
    exact hchanged hring
  · rw [hcounts.1, hcounts.2]
    exact hsame hbase hentries

/-- The lanes, the open frames and capture control after a later COMMIT that no seal follows (R63, R179). -/
theorem commit_noSeal (hd : s.capture.device = .armed ∨ s.capture.device = .running)
    (h : (∀ n, leaves old p n = false) ∨ s.table.openFrames = []
      ∨ ∃ o rest, s.table.openFrames = o :: rest
          ∧ (o.fixed = false ∨ ∃ n : Lane, (old.enabled n = true ∧ p.enabled n = true ∧ s.lanes[n].state = .locked)
              ∧ o.passed.getLsbD n.val = false)) :
    let t := committed old p m s
    (∀ n : Lane, t.lanes[n] = s.lanes[n].underEnable old p n)
      ∧ t.table.openFrames.length = s.table.openFrames.length ∧ t.capture = s.capture
      ∧ ∀ (i : Nat) (f : Frame), s.table.openFrames[i]? = some f → t.table.openFrames[i]? = some
          (Frame.cutBy (cutsOf old p s.lanes f.number allLanes)
            { f with rows := committedRows old p s.reg.correction (i + 1 = s.table.openFrames.length) f }) := by
  unfold committed
  obtain ⟨fs, next, report, last, hu, hlen, hframes, -, -⟩ := planInstalled_exact old p (s.withMailbox 0x01 m)
  generalize planInstalled old p (s.withMailbox 0x01 m) = u at hu ⊢
  intro t
  have hcapture : u.capture = s.capture := by rw [hu]; rfl
  have hlanes : u.lanes = s.lanes := by rw [hu]; rfl
  have hopen : u.table.openFrames = fs := by rw [hu]
  have hplan : u.livePlan = p := by rw [hu]; rfl
  have hlane : applyLaneEnable old p u = lanesEnabled old p u := by
    refine applyLaneEnable_noSeal (by rw [hcapture]; exact hd) hplan ?_
    rw [hlanes, hopen]
    refine h.imp id (Or.imp (fun ho => ?_) ?_)
    · rw [show (s.withMailbox 0x01 m).table.openFrames = [] from ho] at hlen
      exact List.length_eq_zero_iff.mp hlen
    · rintro ⟨o, rest, ho, hwait⟩
      have hfirst := hframes 0 o (by rw [show (s.withMailbox 0x01 m).table.openFrames = o :: rest from ho]; rfl)
      obtain ⟨rest', hrest⟩ := List.head?_eq_some_iff.mp ((List.head?_eq_getElem? (l := fs)).trans hfirst)
      exact ⟨_, rest', hrest, hwait⟩
  obtain ⟨hl, hf, hc⟩ := commitEnds_still m.tag old p (lanesEnabled old p u) (by
    show u.capture.device ≠ .draining
    rw [hcapture]
    rcases hd with e | e <;> rw [e] <;> exact nofun)
  have ht : t = commitEnds m.tag old p (lanesEnabled old p u) := by
    show commitEnds m.tag old p (applyLaneEnable old p u) = _
    rw [hlane]
  rw [ht, hl, hf, hc]
  refine ⟨fun n => ?_, ?_, hcapture, fun i f hi => ?_⟩
  · rw [← hlanes]
    exact getElem_ofFn_lane _ n
  · show (u.table.openFrames.map _).length = _
    rw [List.length_map, hopen]
    exact hlen
  · show (u.table.openFrames.map _)[i]? = _
    rw [List.getElem?_map, hopen, hframes i f hi, ← hlanes]
    rfl

/-- The entry of a frame that waited for the removed lanes alone (R110, R111, R179). -/
theorem commit_seals {o : Frame} {rest : List Frame} {k : Fin 32}
    (hd : s.capture.device = .armed ∨ s.capture.device = .running) (ho : s.table.openFrames = o :: rest) (hleaves : ∃ n, leaves old p n = true) (hfixed : o.fixed = true)
    (hpassed : ∀ n : Lane, old.enabled n = true ∧ p.enabled n = true ∧ s.lanes[n].state = .locked →
      o.passed.getLsbD n.val = true) (hk : o.slot = some k) :
    let t := committed old p m s
    ∃ e, .slot e ∈ t.table.queue ∧ SealedEntry p (lanesStatus p o)
      (allLanes.filter fun n => !joins old p n && s.lanes[n].context.takingInto o.number).length o e := by
  unfold committed
  obtain ⟨fs, next, report, last, hu, hlen, hframes, -, -⟩ := planInstalled_exact old p (s.withMailbox 0x01 m)
  have hfirst := hframes 0 o (by rw [show (s.withMailbox 0x01 m).table.openFrames = o :: rest from ho]; rfl)
  obtain ⟨rest', hrest⟩ := List.head?_eq_some_iff.mp ((List.head?_eq_getElem? (l := fs)).trans hfirst)
  have hrows (newest : Prop) [Decidable newest] : committedRows old p s.reg.correction newest o = o.rows :=
    if_neg fun ⟨_, hprov, _⟩ => by rw [hfixed] at hprov; cases hprov
  rw [show (s.withMailbox 0x01 m).reg = s.reg from rfl, hrows] at hrest
  generalize planInstalled old p (s.withMailbox 0x01 m) = u at hu ⊢
  intro t
  have hlanes : u.lanes = s.lanes := by rw [hu]; rfl
  obtain ⟨e, he, hentry⟩ := applyLaneEnable_seals (u := u) (o := o) (rest := rest') (by rw [hu]; exact hd) (by rw [hu]; rfl)
    hleaves (by rw [hu]; exact hrest) hfixed hk (by rw [hlanes]; exact hpassed)
  obtain ⟨e', he', hcore⟩ := (commitEnds_sealsOn m.tag old p (applyLaneEnable old p u)).entries e he
  rw [hlanes] at hentry
  exact ⟨e', mem_slotEntries.mp he', sealedEntry_core hcore hentry⟩

/-- MARK_MAX_STEP limits the pending correction, and the seals that follow leave it (R63). -/
theorem commit_correction : (committed old p m s).reg.correction = committedCorrection old p s.reg.correction := by
  unfold committed
  obtain ⟨fs, next, report, last, hu, -, -, -, -⟩ := planInstalled_exact old p (s.withMailbox 0x01 m)
  have hlane (u : State) : (applyLaneEnable old p u).reg.correction = u.reg.correction := by
    unfold applyLaneEnable
    dsimp only
    rw [foldl_allLanes]
    split
    · split
      · exact evalSealTest_correction _
      · rfl
    · rfl
  rw [commitEnds_reg, hlane, hu]
  rfl

end

/-- Settles O44: the first good COMMIT by `commit_first`, a later one by `commit_taken` with `commit_later`, and in ARMED and
RUNNING with `commit_correction`, `commit_noSeal` and `commit_seals`. -/
theorem goodCommitTakesThePlan : Obligations.GoodCommitTakesThePlan := by
  refine ⟨fun m s h hp hlive hd => ?_, fun m s old h hp hd hlive => ?_, fun m s old h hp hd hlive => ?_⟩
  · intro c p hpass
    exact commit_first h hp hlive hd rfl hpass
  · intro c p hstatic hpass hnew
    exact ⟨_, commit_taken h hp hd hlive rfl hstatic hpass hnew, commit_later m s old p⟩
  · intro p hstatic hpass hnew enabledIn joins' leaves' cuts allCuts stays correction noSeal
    have hdrain : s.capture.device ≠ .draining := by rcases hd with e | e <;> rw [e] <;> exact nofun
    refine ⟨_, commit_taken h hp hdrain hlive rfl (fun _ => hstatic) hpass hnew, commit_correction, fun hno => ?_,
      fun o rest k ho hleaves hfixed hpassed hk => ?_⟩
    · obtain ⟨hlanes, hlen, hcapture, hframes⟩ := commit_noSeal (m := m) hd hno
      refine ⟨hlanes, hlen, hcapture, fun i f hi => ⟨_, hframes i f hi, ?_, ?_⟩⟩
      · have hcuts : cuts f = cutsOf old p s.lanes f.number allLanes := by
          show (List.filter _ (List.finRange 8)).length = _
          rw [finRange_eight]
          rfl
        rw [hcuts, Frame.cutBy_damaged]
      · rw [Frame.cutBy_damaged]
        rfl
    · obtain ⟨e, he, hentry⟩ := commit_seals (m := m) hd ho hleaves hfixed hpassed hk
      have hcuts : allCuts o = (allLanes.filter fun n => !joins old p n && s.lanes[n].context.takingInto o.number).length := by
        show (List.filter _ (List.finRange 8)).length = _
        rw [finRange_eight]
        rfl
      exact ⟨e, he, by rw [hcuts]; exact hentry⟩

end Sys2Proof.Machine
end

section
/-! Where a line is placed, and what a run fills (R91, R92, R95, R96, R130): the plane of a phase, kept(n) as the number of
kept rows among the first n, and the row that both a line and a run position take. -/

namespace Sys2Proof.Machine

/-! ### The kept rows among the first n (R92) -/

theorem popcount_eq_count (bits m : Nat) : popcount bits m = Nat.count (m.testBit ·) bits := by
  induction bits generalizing m with
  | zero => rfl
  | succ b ih =>
    rw [Nat.count_succ', popcount, ih]
    simp only [Nat.testBit_succ, Nat.testBit_zero, decide_eq_true_eq]
    split <;> omega

/-- Masking with 2 ^ r − 1 leaves the low r bits to count. -/
theorem popcount_lowBits {bits r : Nat} (mask : Nat) (hr : r ≤ bits) :
    popcount bits (mask &&& (2 ^ r - 1)) = Nat.count (mask.testBit ·) r := by
  obtain ⟨d, rfl⟩ := Nat.exists_eq_add_of_le hr
  rw [popcount_eq_count, Nat.count_add]
  have hlow : Nat.count ((mask &&& (2 ^ r - 1)).testBit ·) r = Nat.count (mask.testBit ·) r :=
    List.countP_congr fun j hj => by simp [List.mem_range.mp hj]
  have hhigh : Nat.count (fun j => (mask &&& (2 ^ r - 1)).testBit (r + j)) d = 0 :=
    List.countP_eq_zero.mpr fun j _ => by simp
  rw [hlow, hhigh, Nat.add_zero]

/-- Eight more rows hold one more whole KEEP_MASK. -/
theorem keptRows_add_eight (mask n : Nat) : keptRows mask (n + 8) = popcount 8 mask + keptRows mask n := by
  unfold keptRows
  rw [Nat.add_div_right n (by decide), Nat.add_mod_right, Nat.succ_mul]
  omega

theorem count_rowKept_eight (mask : Nat) : Nat.count (rowKept mask ·) 8 = popcount 8 mask := by
  rw [popcount_eq_count]
  exact List.countP_congr fun j hj => by simp [rowKept, Nat.mod_eq_of_lt (List.mem_range.mp hj)]

theorem keptRows_eq_count (mask n : Nat) : keptRows mask n = Nat.count (rowKept mask ·) n := by
  induction n using Nat.strong_induction_on with
  | _ n ih =>
    rcases lt_or_ge n 8 with hn | hn
    · rw [keptRows, Nat.div_eq_of_lt hn, Nat.mod_eq_of_lt hn, Nat.zero_mul, Nat.zero_add, popcount_lowBits mask hn.le]
      exact List.countP_congr fun j hj => by simp [rowKept, Nat.mod_eq_of_lt ((List.mem_range.mp hj).trans hn)]
    · obtain ⟨m, rfl⟩ := Nat.exists_eq_add_of_le' hn
      have hperiod (j : Nat) : rowKept mask (8 + j) = rowKept mask j := by rw [rowKept, Nat.add_mod_left, rowKept]
      rw [keptRows_add_eight, ih m (by omega), Nat.add_comm m 8, Nat.count_add, count_rowKept_eight]
      simp only [hperiod]

/-- kept(n) counts the kept rows among the first n (R92). -/
theorem keptRows_eq_length (mask n : Nat) :
    keptRows mask n = ((List.range n).filter fun j => mask.testBit (j % 8)).length := by
  rw [keptRows_eq_count, Nat.count, List.countP_eq_length_filter]
  exact congrArg List.length (List.filter_congr fun _ _ => Bool.decide_eq_true)

/-! ### The plane of a phase and the row of a position (R91, R95, R96, R130) -/

section
variable {p : StaticPlan} {q : Nat} {plane : Fin 4}

theorem planeOfPhase_eq_some_iff {phase : Nat} :
    p.planeOfPhase phase = some plane ↔ ∃ i : Fin 4, i.val = phase ∧ p.phaseMap[i] = plane.val := by
  unfold StaticPlan.planeOfPhase
  constructor
  · intro h
    split at h
    next hphase =>
      dsimp only at h
      split at h
      · exact ⟨⟨phase, hphase⟩, rfl, congrArg Fin.val (Option.some.inj h)⟩
      · cases h
    · cases h
  · rintro ⟨i, rfl, hi⟩
    have hlt : p.phaseMap[i.val] < 4 := hi ▸ plane.isLt
    rw [dif_pos i.isLt]
    dsimp only
    rw [dif_pos hlt]
    exact congrArg some (Fin.ext hi)

theorem filledRow_of_discard (slot : Nat) (h : p.planeOfPhase (q % p.phases) = none) : filledRow p slot q = none := by
  unfold filledRow
  rw [h]

theorem filledRow_of_plane (slot : Nat) (h : p.planeOfPhase (q % p.phases) = some plane) :
    filledRow p slot q = if rowKept p.planes[plane].keepMask (q / p.phases) then
      some (plane, p.rowAddress plane slot (keptRows p.planes[plane].keepMask (q / p.phases))) else none := by
  unfold filledRow
  rw [h]

theorem placementOf_of_unfilled {slot : Fin 32} (h : filledRow p slot.val q = none) :
    placementOf p (some slot) q = .none := by
  unfold placementOf
  dsimp only
  rw [h]

theorem placementOf_of_filled {slot : Fin 32} {row : Nat} (h : filledRow p slot.val q = some (plane, row)) :
    placementOf p (some slot) q = .write plane row := by
  unfold placementOf
  dsimp only
  rw [h]

/-- A run position fills the segment, in the row of a line's placement, of its lane (R130). -/
theorem fillTarget_eq_placement (slot : Fin 32) (n : Lane) :
    fillTarget p slot n q = match placementOf p (some slot) q with
      | .none => none
      | .write plane row => some (plane, row + p.lanes[n].xOffset) := by
  unfold fillTarget
  cases h : filledRow p slot.val q with
  | none => rw [placementOf_of_unfilled h]; rfl
  | some r => rw [placementOf_of_filled h]; rfl

end

/-- Settles O23: lines and run positions share `filledRow`, and kept(n) of R92 counts the kept rows. -/
theorem placementFollowsKeepMask : Obligations.PlacementFollowsKeepMask := by
  refine ⟨fun p phase plane => planeOfPhase_eq_some_iff, fun p k q plane hplane => ?_, fun p slot q hdiscard => ?_,
    fun p slot n q => fillTarget_eq_placement slot n⟩
  · intro e i _
    refine ⟨fun hdrop => ?_, fun hkept => ?_, rfl⟩
    · exact placementOf_of_unfilled ((filledRow_of_plane k.val hplane).trans (if_neg (ne_true_of_eq_false hdrop)))
    · rw [placementOf_of_filled ((filledRow_of_plane k.val hplane).trans (if_pos hkept)), StaticPlan.rowAddress,
        keptRows_eq_length]
  · cases slot with
    | none => rfl
    | some k => exact placementOf_of_unfilled (filledRow_of_discard k.val hdiscard)

end Sys2Proof.Machine
end

section
/-! The bytes that a line writes: its destination writes (R98, R99) and its padding (R101, R102). -/

namespace Sys2Proof.Machine

/-! ### Padding (R101, R102) -/

theorem paddingWrites_length (pixelBytes value addr len : Nat) :
    (paddingWrites pixelBytes value addr len).length = (len + 255) / 256 := by
  simp [paddingWrites, chunkCount]

theorem paddingWrites_getElem? {len j : Nat} (pixelBytes value addr : Nat) (hj : 256 * j < len) :
    (paddingWrites pixelBytes value addr len)[j]?
      = some (.write (addr + 256 * j) 0 (fillBytes pixelBytes value (min 256 (len - 256 * j)))) := by
  have hchunk : j < chunkCount len := by
    unfold chunkCount
    omega
  simp [paddingWrites, List.getElem?_range hchunk]

/-- Settles O22: padded byte i is byte i mod 256 of write i / 256, and 256 is even, so the pattern goes on across writes. -/
theorem paddingCoversTheSegment : Obligations.PaddingCoversTheSegment := by
  intro p n plane row pix e x0 first len writes
  refine ⟨paddingWrites_length _ _ _ _, fun i hi => ?_⟩
  have hwrite : 256 * (i / 256) < len := by omega
  refine ⟨_, paddingWrites_getElem? _ _ _ hwrite, fillBytes_length _ _ _, ?_⟩
  have hin : i % 256 < min 256 (len - 256 * (i / 256)) := by omega
  have hparity : i % 256 % 2 = i % 2 := Nat.mod_mod_of_dvd i (by decide)
  rw [fillBytes_pattern plane _ _ (by rwa [fillBytes_length]), hparity]

/-! ### Destination writes (R98, R99) -/

section
variable {p : StaticPlan} {n : Lane} {row b1 : Nat} {bytes : List Byte}

theorem destinationWrite_of_outside (h : min (b1 + bytes.length) (cropEnd p n) ≤ max b1 (cropStart p n)) :
    destinationWrite p n row b1 bytes = none :=
  if_neg (Nat.not_lt.mpr h)

theorem destinationWrite_of_inside (h : max b1 (cropStart p n) < min (b1 + bytes.length) (cropEnd p n)) :
    ∃ data, destinationWrite p n row b1 bytes
        = some (.write (row + p.lanes[n].xOffset + (max b1 (cropStart p n) - cropStart p n)) 0 data)
      ∧ data.length = min (b1 + bytes.length) (cropEnd p n) - max b1 (cropStart p n)
      ∧ ∀ i, i < min (b1 + bytes.length) (cropEnd p n) - max b1 (cropStart p n) →
          data[i]? = bytes[max b1 (cropStart p n) - b1 + i]? := by
  refine ⟨_, if_pos h, ?_, fun i hi => ?_⟩
  · rw [List.length_take, List.length_drop]
    omega
  · rw [List.getElem?_take_of_lt hi, List.getElem?_drop]

/-- The derived writes of a burst for a line that is written: those of its line bytes, then the padding at the line end. -/
theorem writesOfBurst_write (x : LineExtent) (frame : Count) (q : Nat) (plane : Fin 4) :
    writesOfBurst p n bytes (.taking x frame q (.write plane row))
      = (destinationWrite p n row (x.expected - pixelOrigin p n x)
          (bytes.take (lineBytes x bytes.length))).toList.map (fun r => { kind := .steer frame, req := r })
        ++ if x.lineEnd ≤ x.expected + lineBytes x bytes.length then
            (linePadding p n plane row ((x.lineEnd - pixelOrigin p n x) / p.pixelBytes)).map
              fun r => { kind := .steer frame, req := r }
          else [] := by
  unfold writesOfBurst takingWrites LineExtent.done LineExtent.advance
  simp only [decide_eq_true_eq, List.map_append]
  split <;> rfl

end

/-- Settles O21: the line bytes are the burst's first bytes, so a byte of the destination write is a byte of the burst. -/
theorem destinationWriteOfBurst : Obligations.DestinationWrite := by
  intro p n x frame q bytes e origin k b1 s1 s2
  refine ⟨fun plane row => ?_, rfl, rfl, rfl, rfl, fun _ => rfl⟩
  intro writes pads
  have hwrites : writes = (destinationWrite p n row b1 (bytes.take k)).toList.map _ ++ pads :=
    writesOfBurst_write x frame q plane
  have hk : (bytes.take k).length = k := List.length_take_of_le (Nat.min_le_left _ _)
  have hend : min (b1 + (bytes.take k).length) (cropEnd p n) = s2 := by rw [hk]; rfl
  refine ⟨fun hout => ?_, fun hin => ?_⟩
  · rw [hwrites, destinationWrite_of_outside (by rwa [hend])]
    rfl
  · obtain ⟨data, hdest, hlength, hbytes⟩ := destinationWrite_of_inside (row := row) (show s1 < _ by rwa [hend])
    rw [hend] at hlength hbytes
    refine ⟨data, by rw [hwrites, hdest]; rfl, hlength, fun i hi => ?_⟩
    have hline : s1 - b1 + i < k := by omega
    rw [hbytes i hi, ← List.getElem?_take_of_lt hline]
    rfl

end Sys2Proof.Machine
end

section
/-! The queue of commands and the ticks (R113, R151; logs 2, 9), the seal test (R110), and the join of a slotless frame
(R120). -/

namespace Sys2Proof.Machine

/-! ### One step -/

theorem step_front {s : State} {c : Instr} {rest : List Instr} (h : s.pending = c :: rest) :
    step s = exec c { s with pending := rest } := by
  unfold step
  rw [h]

theorem step_tick {s : State} (h : s.pending = []) : step s = .next (tickAttnTimer (tickSealTimer s)) := by
  unfold step
  rw [h]
  rfl

theorem tickSealTimer_idle {s : State} (h : s.table.sealTimer = .idle) : tickSealTimer s = s := by
  unfold tickSealTimer
  rw [h]

theorem tickSealTimer_running {s : State} {f : Count} {r : Nat} (h : s.table.sealTimer = .running f r) :
    tickSealTimer s = if r ≤ 1 then sealTimerExpires s
      else { s with table := { s.table with sealTimer := .running f (r - 1) } } := by
  unfold tickSealTimer
  rw [h]

theorem tickAttnTimer_running {s : State} {r : Nat} (h : s.report.attnTimer = .running r) :
    tickAttnTimer s = if r ≤ 1 then attentionExpires s
      else { s with report := { s.report with attnTimer := .running (r - 1) } } := by
  unfold tickAttnTimer
  rw [h]

theorem tickAttnTimer_still {s : State} (h : ∀ r, s.report.attnTimer ≠ .running r) : tickAttnTimer s = s := by
  unfold tickAttnTimer
  cases ha : s.report.attnTimer with
  | running r => exact absurd ha (h r)
  | _ => rfl

/-- Settles O1: the command at the front, or on an empty queue a tick of the seal timer and then of the attention timer. -/
theorem stepRunsFrontCommand : Obligations.StepRunsFrontCommand := by
  refine ⟨fun c rest s h => step_front h, fun s hempty => ⟨tickSealTimer s, tickSealTimer_idle, fun f r h hr => ?_,
    fun f r h hr => ?_, fun h => ?_, fun r h hr => ?_, fun r h hr => ?_⟩⟩
  · rw [tickSealTimer_running h, if_neg (by omega)]
  · rw [tickSealTimer_running h, if_pos hr]
    rfl
  · rw [step_tick hempty, tickAttnTimer_still h]
  · rw [step_tick hempty, tickAttnTimer_running h, if_neg (by omega)]
  · rw [step_tick hempty, tickAttnTimer_running h, if_pos hr]
    rfl

/-! ### The seal test (R110) -/

theorem lanesPassed_iff (s : State) (f : Frame) :
    lanesPassed s f = true ↔ ∀ n : Lane, s.livePlan.run.laneEnable.getLsbD n.val = true → s.lanes[n].state = .locked →
      f.passed.getLsbD n.val = true := by
  have hlane (n : Lane) : (!(s.livePlan.enabled n && decide (s.lanes[n].state = .locked)) || f.passed.getLsbD n.val) = true
      ↔ (s.livePlan.run.laneEnable.getLsbD n.val = true → s.lanes[n].state = .locked → f.passed.getLsbD n.val = true) := by
    simp only [Plan.enabled, Bool.or_eq_true, Bool.not_eq_true', Bool.and_eq_false_imp, decide_eq_false_iff_not,
      or_iff_not_imp_left, Classical.not_imp, not_not, and_imp]
  unfold lanesPassed
  rw [List.all_eq_true]
  exact ⟨fun h n => (hlane n).mp (h n (mem_allLanes n)), fun h n _ => (hlane n).mpr (h n)⟩

theorem sealTest_cons {s : State} {f : Frame} {rest : List Frame} (h : s.table.openFrames = f :: rest) :
    sealTest s = (f.fixed && lanesPassed s f) := by
  unfold sealTest
  rw [h]

theorem sealTest_nil {s : State} (h : s.table.openFrames = []) : sealTest s = false := by
  unfold sealTest
  rw [h]

/-! ### The join of a slotless frame (R120) -/

theorem appendSkip_cons (presented : Bool) (f : Frame) (a b : QueueEntry) (rest : List QueueEntry) :
    appendSkip presented f (a :: b :: rest) = a :: appendSkip false f (b :: rest) := by
  cases a <;> rfl

/-- Only the tail of the seal queue is looked at, and whether it is also the head. -/
theorem appendSkip_concat (presented : Bool) (f : Frame) (older : List QueueEntry) (e : QueueEntry) :
    appendSkip presented f (older ++ [e]) = older ++ appendSkip (presented && older.isEmpty) f [e] := by
  induction older generalizing presented with
  | nil => rw [List.isEmpty_nil, Bool.and_true]; rfl
  | cons a older ih =>
    rw [List.isEmpty_cons, Bool.and_false]
    cases older with
    | nil => exact appendSkip_cons presented f a e []
    | cons b older => exact (appendSkip_cons presented f a b _).trans (congrArg (a :: ·) (ih false))

theorem appendSkip_skip (presented : Bool) (f : Frame) (x : SkipEntry) :
    appendSkip presented f [.skip x] = if x.precedes f.number && !presented then [.skip (x.takeIn f)]
      else [.skip x, .skip (skipEntryOf f)] := rfl

/-- Settles O33: the tail entry takes the frame in when its frames end just before it, unless its record is presented. -/
theorem slotlessFramesMerge : Obligations.SlotlessFramesMerge := by
  intro presented f older x
  have hmerge : (x.precedes f.number && !(presented && older.isEmpty)) = true
      ↔ (x.count = 4294967295 ∨ x.first + BitVec.ofNat 32 x.count = f.number) ∧ (older ≠ [] ∨ presented = false) := by
    rw [Bool.and_eq_true, SkipEntry.precedes_iff]
    cases presented <;> cases older <;> simp [Config.max32]
  refine ⟨fun hx hhead => ?_, fun hnot => ?_, fun e => appendSkip_concat presented f older (.slot e), rfl, rfl, rfl⟩
  · rw [appendSkip_concat, appendSkip_skip, if_pos (hmerge.mpr ⟨hx, hhead⟩)]
    unfold SkipEntry.takeIn
    cases x.firstTime <;> rfl
  · rw [appendSkip_concat, appendSkip_skip, if_neg fun h => ?_]
    obtain ⟨hx, hhead⟩ := hmerge.mp h
    rcases hnot with ⟨hcount, hnumber⟩ | ⟨holder, hpresented⟩
    · exact hx.elim hcount hnumber
    · rcases hhead with h | h
      · exact h holder
      · rw [hpresented] at h
        cases h

end Sys2Proof.Machine

namespace Sys2Proof.Proofs

open Sys2Proof.Machine

/-- Settles O32: with a frame open, the test reads the oldest. -/
theorem sealTest : Obligations.SealTest := by
  intro s
  cases h : s.table.openFrames with
  | nil => exact .inl ⟨rfl, sealTest_nil h⟩
  | cons f rest => exact .inr ⟨f, rest, rfl, by rw [sealTest_cons h, Bool.and_eq_true, lanesPassed_iff]⟩

end Sys2Proof.Proofs
end

section
/-! The seals of every open frame that STOP and ABORT bring about (R109, R175, R178): the lanes go OFF first, so that no line
is in flight any more when the frames seal. -/

namespace Sys2Proof.Machine

/-! ### Every lane goes OFF (R34, R40) -/

theorem exists_leaves_all : ∃ old new : Plan, ∀ n, leaves old new n = true :=
  ⟨{ Plan.blank with run := { Plan.blank.run with laneEnable := 0xFF } },
    { Plan.blank with run := { Plan.blank.run with laneEnable := 0 } }, by decide⟩

/-- The state once every lane has gone OFF, with injections kept or emptied, and the lines that were in flight count as
damaged in their frames. -/
def lanesCut (keepInjection : Bool) (s : State) : State :=
  { s with
    lanes := lanesAllOff keepInjection s.lanes
    table := { s.table with openFrames := s.table.openFrames.map fun f => f.cutBy (s.cutsInto f.number) } }

/-- What STOP and ABORT do first, which is what a COMMIT does that takes every lane from LANE_ENABLE (R40, R175, R179). -/
theorem lanesOff_exact (s : State) : lanesOff s = lanesCut true s := by
  obtain ⟨old, new, hleaves⟩ := exists_leaves_all
  have hjoins (n : Lane) : ¬joins old new n = true := by
    rw [joins_of_leaves (hleaves n)]
    exact Bool.false_ne_true
  have hoff (n : Lane) (u : State) : laneOff n u = enableLane old new n u := by
    rw [enableLane_def, if_neg (hjoins n), if_pos (hleaves n)]
  have hlane (n : Lane) : s.lanes[n].underEnable old new n = s.lanes[n].turnedOff := by
    rw [underEnable_def, if_neg (hjoins n), if_pos (hleaves n)]
  have hcuts (number : Count) : cutsOf old new s.lanes number allLanes = s.cutsInto number := by
    unfold cutsOf
    simp only [hleaves, Bool.true_and]
    rfl
  unfold lanesOff
  simp only [hoff]
  rw [foldl_allLanes]
  unfold lanesEnabled
  simp only [hlane, hcuts]
  rfl

/-- No lane has a line. -/
abbrev NoLines (lanes : Vector LaneTracker 8) : Prop := ∀ n : Lane, lanes[n].context = .none

theorem lanesCut_noLines (keepInjection : Bool) (s : State) : NoLines (lanesCut keepInjection s).lanes := by
  intro n
  unfold lanesCut lanesAllOff
  rw [getElem_ofFn_lane]

theorem emptyInjections_lanesCut (s : State) : emptyInjections (lanesCut true s) = lanesCut false s := by
  unfold emptyInjections lanesCut lanesAllOff
  simp only [getElem_ofFn_lane]
  rfl

theorem NoLines.cutLanes {lanes : Vector LaneTracker 8} (h : NoLines lanes) (number : Count) :
    cutLanes number lanes = lanes := by
  ext1 i hi
  have hlane := cutLanes_getElem number lanes ⟨i, hi⟩
  rw [h ⟨i, hi⟩] at hlane
  refine hlane.trans ?_
  show { lanes[(⟨i, hi⟩ : Lane)] with context := LineContext.none } = lanes[(⟨i, hi⟩ : Lane)]
  rw [← h ⟨i, hi⟩]

theorem NoLines.linesInFlight {lanes : Vector LaneTracker 8} (h : NoLines lanes) (number : Count) :
    linesInFlight number lanes = 0 := by
  unfold Machine.linesInFlight
  simp only [h, LineContext.takingInto]
  rfl

/-! ### A sealed frame in the seal queue -/

/-- A frame has sealed with a status and joined the seal queue: in a slot entry, not yet filled, or in a skip entry (R117,
R120). -/
def Joined (p : Plan) (status : FrameStatus) (cut : Nat) (f : Frame) (q : List QueueEntry) : Prop :=
  (∀ k, f.slot = some k → ∃ e, .slot e ∈ q ∧ SealedEntry p status cut f e ∧ e.filled = false)
    ∧ (f.slot = none → ∃ x, .skip x ∈ q ∧ SkipCovers p cut f x)

/-- What the seal queue says of a frame whose lines were cut before its seal. -/
theorem Joined.of_cutBy {p : Plan} {status : FrameStatus} {cut : Nat} {f : Frame} {q : List QueueEntry}
    (h : Joined p status 0 (f.cutBy cut) q) : Joined p status cut f q := by
  have hdamaged : min 65535 ((f.cutBy cut).damaged + 0) = min 65535 (f.damaged + cut) := by
    rw [Frame.cutBy_damaged]
    dsimp only
    split <;> omega
  obtain ⟨d, hcut⟩ := f.cutBy_with cut
  have hclose : Frame.closeAll p { f with damaged := d } = { f.closeAll p with damaged := d, fixed := f.fixed } :=
    Frame.closeAll_with p f d f.fixed
  rw [hcut] at h hdamaged
  unfold Joined SealedEntry SkipCovers at h ⊢
  simpa only [hclose, hdamaged] using h

/-- A skip entry that takes in one more frame covers what it covered (R120). -/
theorem SkipCovers.takeIn {p : Plan} {cut : Nat} {f g : Frame} {x : SkipEntry} (h : SkipCovers p cut f x) :
    SkipCovers p cut f (x.takeIn g) := by
  obtain ⟨⟨i, hi, hlt⟩, hdamaged, hmissing, hdelivered, hmark⟩ := h
  refine ⟨⟨i, hi, ?_⟩, ?_, ?_, ?_, fun hm => ?_⟩
  · show i < min Config.max32 (x.count + 1) ∨ min Config.max32 (x.count + 1) = 4294967295
    unfold Config.max32
    omega
  · show min 65535 (f.damaged + cut) ≤ min Config.max16 (x.damaged + g.damaged)
    unfold Config.max16
    omega
  · show min 4294967295 (f.closeAll p).missing ≤ min Config.max32 (x.missing + g.missing)
    unfold Config.max32
    omega
  · show (x.delivered ||| g.delivered) ||| f.delivered = x.delivered ||| g.delivered
    rw [BitVec.or_assoc, BitVec.or_comm g.delivered, ← BitVec.or_assoc, hdelivered]
  · show (x.markTaken || g.markTaken) = true
    rw [hmark hm, Bool.true_or]

/-- A frame that a skip entry covers stays covered when another slotless frame joins the seal queue. -/
theorem appendSkip_covers {p : Plan} {cut : Nat} {f : Frame} (presented : Bool) (g : Frame) {q : List QueueEntry}
    (h : ∃ x, .skip x ∈ q ∧ SkipCovers p cut f x) :
    ∃ x, .skip x ∈ appendSkip presented g q ∧ SkipCovers p cut f x := by
  obtain ⟨x, hx, hc⟩ := h
  rcases List.eq_nil_or_concat q with rfl | ⟨older, e, rfl⟩
  · cases hx
  rw [List.concat_eq_append] at hx ⊢
  rw [appendSkip_concat]
  rcases List.mem_append.mp hx with hx | hx
  · exact ⟨x, List.mem_append_left _ hx, hc⟩
  · obtain rfl := List.mem_singleton.mp hx
    rw [appendSkip_skip]
    split
    · exact ⟨x.takeIn g, List.mem_append_right _ List.mem_cons_self, hc.takeIn⟩
    · exact ⟨x, List.mem_append_right _ List.mem_cons_self, hc⟩

/-! ### One seal after another (R109, R115 to R117) -/

/-- What a seal, or a row of seals, keeps where no lane has a line: the lanes, the plan and capture control, the slot entries
of the seal queue, and what its skip entries cover. -/
structure SealsKeep (s t : State) : Prop where
  lanes   : t.lanes = s.lanes
  plan    : t.plan = s.plan
  capture : t.capture = s.capture
  entries : ∀ e, .slot e ∈ s.table.queue → .slot e ∈ t.table.queue
  skips   : ∀ p cut f, (∃ x, .skip x ∈ s.table.queue ∧ SkipCovers p cut f x) →
    ∃ x, .skip x ∈ t.table.queue ∧ SkipCovers p cut f x

theorem SealsKeep.rfl {s : State} : SealsKeep s s := ⟨Eq.refl _, Eq.refl _, Eq.refl _, fun _ => id, fun _ _ _ => id⟩

theorem SealsKeep.trans {s t u : State} (h : SealsKeep s t) (k : SealsKeep t u) : SealsKeep s u :=
  ⟨k.lanes.trans h.lanes, k.plan.trans h.plan, k.capture.trans h.capture, fun e => k.entries e ∘ h.entries e,
    fun p cut f => k.skips p cut f ∘ h.skips p cut f⟩

theorem SealsKeep.livePlan {s t : State} (h : SealsKeep s t) : t.livePlan = s.livePlan := by
  unfold State.livePlan
  rw [h.plan]

theorem SealsKeep.joined {s t : State} (h : SealsKeep s t) {p : Plan} {status : FrameStatus} {cut : Nat} {f : Frame}
    (hf : Joined p status cut f s.table.queue) : Joined p status cut f t.table.queue := by
  obtain ⟨hslot, hslotless⟩ := hf
  refine ⟨fun k hk => ?_, fun hk => h.skips p cut f (hslotless hk)⟩
  obtain ⟨e, he, hentry⟩ := hslot k hk
  exact ⟨e, h.entries e he, hentry⟩

/-- Whether the frame of a slot is handed to the Patch Engine when it seals (R117, R127). -/
def patchedBy (cause : SealCause) (p : Plan) (f : Frame) : Bool :=
  p.run.patchEnable && decide (sealStatus cause f ≠ .aborted) && !f.runs.isEmpty

/-- A frame with a slot that seals: its entry is the last of the queue, and its slot is handed on (R117). -/
theorem enqueueSealed_slot (cause : SealCause) {f : Frame} {k : Fin 32} (s : State) (hk : f.slot = some k) :
    enqueueSealed cause f s = { s with table := { s.table with
      queue := s.table.queue ++ [.slot (slotEntryOf f k (sealStatus cause f) (patchedBy cause s.livePlan f))]
      slots := s.table.slots.set k (if patchedBy cause s.livePlan f then .patching else .ready) } } := by
  unfold enqueueSealed
  rw [hk]
  rfl

theorem enqueueSealed_keeps (cause : SealCause) (f : Frame) (s : State) : SealsKeep s (enqueueSealed cause f s) := by
  cases hk : f.slot with
  | none =>
    rw [enqueueSealed_slotless cause hk]
    refine ⟨rfl, rfl, rfl, fun e he => ?_, fun p cut g => appendSkip_covers _ f⟩
    show .slot e ∈ appendSkip _ f s.table.queue
    rwa [← mem_slotEntries, slotEntries_appendSkip, mem_slotEntries]
  | some k =>
    rw [enqueueSealed_slot cause s hk]
    refine ⟨rfl, rfl, rfl, fun e he => List.mem_append_left _ he, fun p cut g hx => ?_⟩
    obtain ⟨x, hx, hc⟩ := hx
    exact ⟨x, List.mem_append_left _ hx, hc⟩

/-- The frame that seals has joined the queue. -/
theorem enqueueSealed_joined (cause : SealCause) {status : FrameStatus} (p : Plan) (cut : Nat) (b : Bool) {f : Frame}
    (s : State) (hstatus : ∀ k, f.slot = some k → sealStatus cause (f.sealedWith p cut b) = status) :
    Joined p status cut f (enqueueSealed cause (f.sealedWith p cut b) s).table.queue := by
  refine ⟨fun k hk => ?_, fun hk => ?_⟩
  · rw [enqueueSealed_slot cause s ((Frame.sealedWith_slot p cut b f).trans hk), hstatus k hk]
    exact ⟨_, List.mem_append_right _ List.mem_cons_self, sealedEntry_slotEntryOf cut b _ status hk, rfl⟩
  · rw [enqueueSealed_slotless cause ((Frame.sealedWith_slot p cut b f).trans hk)]
    exact skipCovers_appendSkip p cut b f _ _

/-- With no line in flight, the oldest frame leaves the list and joins the seal queue, and only the registration, the latches
and the frame table change. -/
theorem sealOldest_noLines (cause : SealCause) {s : State} {f : Frame} {rest : List Frame}
    (h : s.table.openFrames = f :: rest) (hlanes : NoLines s.lanes) :
    ∃ b r ls, sealOldest cause s = enqueueSealed cause (f.sealedWith s.livePlan 0 b) { s with
      reg := r
      report := { s.report with latches := ls }
      table := { s.table with openFrames := rest, sealTimer := s.table.sealTimer.stopFor f.number } } := by
  obtain ⟨b, r, hseal, -⟩ := sealOldest_cons cause h
  obtain ⟨ls, hframe⟩ := sealFrame_eq cause { f with fixed := b } rest
    { s with table := { s.table with openFrames := { f with fixed := b } :: rest }, reg := r }
  refine ⟨b, r.afterSeal f, ls, ?_⟩
  have hdone : sealedFrame { s with table := { s.table with openFrames := { f with fixed := b } :: rest }, reg := r }
      { f with fixed := b } = f.sealedWith s.livePlan 0 b :=
    sealedFrame_eq b (by dsimp only; rw [hlanes.linesInFlight])
  rw [hseal, hframe, hdone]
  unfold withoutOldest
  dsimp only
  rw [hlanes.cutLanes]
  rfl

theorem sealOldest_keeps (cause : SealCause) {s : State} (hlanes : NoLines s.lanes) : SealsKeep s (sealOldest cause s) := by
  cases h : s.table.openFrames with
  | nil => rw [sealOldest_nil cause h]; exact .rfl
  | cons f rest =>
    obtain ⟨b, r, ls, hseal⟩ := sealOldest_noLines cause h hlanes
    rw [hseal]
    refine SealsKeep.trans ?_ (enqueueSealed_keeps cause _ _)
    exact ⟨rfl, rfl, rfl, fun _ => id, fun _ _ _ => id⟩

theorem sealOldest_joined (cause : SealCause) {status : FrameStatus} {s : State} {f : Frame} {rest : List Frame}
    (h : s.table.openFrames = f :: rest) (hlanes : NoLines s.lanes)
    (hstatus : ∀ g : Frame, g.slot ≠ none → sealStatus cause g = status) :
    Joined s.livePlan status 0 f (sealOldest cause s).table.queue := by
  obtain ⟨b, r, ls, hseal⟩ := sealOldest_noLines cause h hlanes
  rw [hseal]
  refine enqueueSealed_joined cause s.livePlan 0 b _ fun k hk => hstatus _ ?_
  rw [Frame.sealedWith_slot, hk]
  exact nofun

theorem sealEach_zero (cause : SealCause) (s : State) : sealEach cause 0 s = s := rfl

theorem sealEach_succ (cause : SealCause) (fuel : Nat) (s : State) :
    sealEach cause (fuel + 1) s = sealEach cause fuel (sealOldest cause s) := rfl

/-- Every open frame seals, and the seal queue keeps what it held (R175, R178). -/
theorem sealAll_joined (cause : SealCause) {status : FrameStatus} {s : State} (hlanes : NoLines s.lanes)
    (hstatus : ∀ g : Frame, g.slot ≠ none → sealStatus cause g = status) :
    SealsKeep s (sealAll cause s)
      ∧ ∀ f ∈ s.table.openFrames, Joined s.livePlan status 0 f (sealAll cause s).table.queue := by
  have each (l : List Frame) (u : State) (h : u.table.openFrames = l) (hu : NoLines u.lanes) :
      SealsKeep u (sealEach cause l.length u)
        ∧ ∀ f ∈ l, Joined u.livePlan status 0 f (sealEach cause l.length u).table.queue := by
    induction l generalizing u with
    | nil =>
      rw [List.length_nil, sealEach_zero]
      exact ⟨.rfl, List.forall_mem_nil _⟩
    | cons f rest ih =>
      have hkeep := sealOldest_keeps cause hu
      rw [List.length_cons, sealEach_succ]
      obtain ⟨hkeeps, hjoined⟩ := ih (sealOldest cause u) (sealOldest_length cause h) (hkeep.lanes ▸ hu)
      refine ⟨hkeep.trans hkeeps, fun g hg => ?_⟩
      rcases List.mem_cons.mp hg with rfl | hg
      · exact hkeeps.joined (sealOldest_joined cause h hu hstatus)
      · exact hkeep.livePlan ▸ hjoined g hg
  exact each s.table.openFrames s rfl hlanes

/-- The seals of STOP and of ABORT after the lanes went OFF: what they keep, and the frames that have joined the seal queue
with the lines that were cut. -/
theorem sealAll_lanesCut (cause : SealCause) {status : FrameStatus} (keepInjection : Bool) (s : State)
    (hstatus : ∀ g : Frame, g.slot ≠ none → sealStatus cause g = status) :
    SealsKeep (lanesCut keepInjection s) (sealAll cause (lanesCut keepInjection s))
      ∧ ∀ f ∈ s.table.openFrames,
        Joined s.livePlan status (s.cutsInto f.number) f (sealAll cause (lanesCut keepInjection s)).table.queue := by
  obtain ⟨hkeeps, hjoined⟩ := sealAll_joined cause (lanesCut_noLines keepInjection s) hstatus
  refine ⟨hkeeps, fun f hf => Joined.of_cutBy (hjoined (f.cutBy (s.cutsInto f.number)) ?_)⟩
  unfold lanesCut
  exact List.mem_map_of_mem hf

theorem sealAll_origin (cause : SealCause) (keepInjection : Bool) (s : State) :
    (sealAll cause (lanesCut keepInjection s)).reg.origin = s.reg.origin := (sealAll_sheds _ _).origin

/-- The status of a frame with a slot that FLUSH, STOP or ABORT seals (R108). -/
theorem sealStatus_flush {g : Frame} (h : g.slot ≠ none) : sealStatus .flush g = .flushed :=
  if_neg (by rwa [Option.isNone_iff_eq_none])

theorem sealStatus_abort {g : Frame} (h : g.slot ≠ none) : sealStatus .abort g = .aborted :=
  if_neg (by rwa [Option.isNone_iff_eq_none])

end Sys2Proof.Machine
end

section
/-! STOP (R171, R175, R176). -/

namespace Sys2Proof.Machine

/-! ### The drain of a STOP (R176) -/

/-- A STOP that is taken is pending, and the device drains for it (R175). -/
def withStop (tag : Byte) (s : State) : State :=
  { s with
    capture := { s.capture with device := .draining, drainCause := .stop }
    plan := { s.plan with pendingCommand := some (.stop tag) } }

theorem beginDrain_eq (tag : Byte) (s : State) :
    beginDrain tag s = settle (sealAll .flush (lanesCut true (withStop tag s))) := by
  rw [← lanesOff_exact]
  rfl

/-- The take-up of patching changes no skip entry (R129, R133). -/
theorem takeUpEach_skip {x : SkipEntry} (fuel : Nat) {s : State} (h : .skip x ∈ s.table.queue) :
    .skip x ∈ (takeUpEach fuel s).table.queue := by
  induction fuel generalizing s with
  | zero => exact h
  | succ fuel ih =>
    unfold takeUpEach
    split
    · exact h
    · split
      · exact h
      · split
        · exact h
        · exact ih (List.mem_map.mpr ⟨_, h, rfl⟩)

theorem settle_skip {x : SkipEntry} {s : State} (h : .skip x ∈ s.table.queue) : .skip x ∈ (settle s).table.queue := by
  unfold settle
  rw [drainTest_table]
  exact takeUpEach_skip _ h

theorem answerStop_pending {tag : Byte} {u : State} (h : u.plan.pendingCommand = some (.stop tag)) :
    answerStop u = answer tag rDone { u with plan := { u.plan with pendingCommand := none } } := by
  unfold answerStop
  rw [h]

/-- The state in which the drain of a STOP has completed (R176). -/
def stopDone (tag : Byte) (s : State) : State :=
  let t := handNotice .stopped .stop { s with capture := { s.capture with device := .stopped, drainCause := .none } }
  answer tag rDone { t with plan := { t.plan with pendingCommand := none } }

/-- The completion test while STOP is pending: no slot PATCHING, and STOP is answered; or the drain goes on. -/
theorem drainTest_stop {tag : Byte} {s : State} (hopen : s.table.openFrames = []) (hdevice : s.capture.device = .draining)
    (hcause : s.capture.drainCause = .stop) (hpending : s.plan.pendingCommand = some (.stop tag)) :
    drainTest s = if anyPatching s.table then s else stopDone tag s := by
  unfold drainTest
  cases hp : anyPatching s.table with
  | true => exact if_neg fun h => Bool.noConfusion h.2.2
  | false =>
    rw [if_pos ⟨hdevice, hopen, rfl⟩, if_neg Bool.false_ne_true]
    unfold completeDrain
    rw [hcause]
    exact answerStop_pending hpending

theorem drainTest_lanes (s : State) : (drainTest s).lanes = s.lanes := by
  unfold drainTest completeDrain answerStop
  split
  · dsimp only
    repeat' split
    all_goals rfl
  · rfl

/-- Where a STOP ends: STOPPED with the notice and the answer, or DRAINING with STOP pending (R175, R176). -/
def StopEnded (tag : Byte) (s t : State) : Prop :=
  (anyPatching t.table = false ∧ t.capture = { s.capture with device := .stopped, drainCause := .none }
      ∧ t.plan.pendingCommand = none ∧ Answered tag (0x50, 0x00) .stopped t
      ∧ t.report.stateNotice = some { device := .stopped, cause := .stop, generation := s.plan.generation,
                                      origin := s.reg.origin })
    ∨ (anyPatching t.table = true ∧ t.capture = { s.capture with device := .draining, drainCause := .stop }
      ∧ t.plan.pendingCommand = some (.stop tag))

/-- The end of the step of a STOP, when its seals have left no frame open. -/
theorem present_drainTest_stop {tag : Byte} {s u : State} (hopen : u.table.openFrames = [])
    (hcapture : u.capture = (withStop tag s).capture) (hplan : u.plan = (withStop tag s).plan)
    (horigin : u.reg.origin = s.reg.origin) : StopEnded tag s (present (drainTest u)) := by
  have hend := drainTest_stop (tag := tag) hopen (by rw [hcapture]; rfl) (by rw [hcapture]; rfl) (by rw [hplan]; rfl)
  unfold StopEnded
  rw [present_table, present_capture, present_plan, (present_chosen _).stateNotice, drainTest_table, hend]
  cases hp : anyPatching u.table with
  | true =>
    rw [if_pos rfl]
    exact .inr ⟨rfl, hcapture, congrArg PlanUnit.pendingCommand hplan⟩
  | false =>
    rw [if_neg Bool.false_ne_true]
    refine .inl ⟨rfl, ?_, rfl, answered_present tag rDone _, ?_⟩
    · show { u.capture with device := .stopped, drainCause := .none } = _
      rw [hcapture]
      rfl
    · show some (StateNotice.mk .stopped .stop u.plan.generation u.reg.origin) = _
      rw [hplan, horigin]
      rfl

/-! ### The state in which a command of the mailbox acts (R154, R157) -/

section
variable (s : State) (code : Byte) (m : Mailbox)

@[simp] theorem withMailbox_lanes : (s.withMailbox code m).lanes = s.lanes := rfl
@[simp] theorem withMailbox_reg : (s.withMailbox code m).reg = s.reg := rfl
@[simp] theorem withMailbox_table : (s.withMailbox code m).table = s.table := rfl
@[simp] theorem withMailbox_capture : (s.withMailbox code m).capture = s.capture := rfl
@[simp] theorem withMailbox_live : (s.withMailbox code m).plan.live = s.plan.live := by
  unfold State.withMailbox; rfl
@[simp] theorem withMailbox_generation : (s.withMailbox code m).plan.generation = s.plan.generation := by
  unfold State.withMailbox; rfl
@[simp] theorem withMailbox_pendingCommand : (s.withMailbox code m).plan.pendingCommand = s.plan.pendingCommand := by
  unfold State.withMailbox; rfl

@[simp] theorem withMailbox_livePlan : (s.withMailbox code m).livePlan = s.livePlan := by
  unfold State.livePlan
  rw [withMailbox_live]

@[simp] theorem withMailbox_cutsInto (number : Count) : (s.withMailbox code m).cutsInto number = s.cutsInto number := by
  unfold State.cutsInto
  rw [withMailbox_lanes]

end

/-! ### The whole step (R175) -/

/-- What a frame that has sealed left in the seal queue stays there while patching is taken up. -/
theorem Joined.settled {p : Plan} {status : FrameStatus} {cut : Nat} {f : Frame} {s : State}
    (h : Joined p status cut f s.table.queue) :
    (∀ k, f.slot = some k → ∃ e, .slot e ∈ (settle s).table.queue ∧ SealedEntry p status cut f e)
      ∧ (f.slot = none → ∃ x, .skip x ∈ (settle s).table.queue ∧ SkipCovers p cut f x) := by
  obtain ⟨hslot, hslotless⟩ := h
  refine ⟨fun k hk => ?_, fun hk => ?_⟩
  · obtain ⟨e, he, hentry, -⟩ := hslot k hk
    obtain ⟨e', he', hcore⟩ := (settle_sealsOn s).entries e (mem_slotEntries.mpr he)
    exact ⟨e', mem_slotEntries.mp he', sealedEntry_core hcore hentry⟩
  · obtain ⟨x, hx, hcovers⟩ := hslotless hk
    exact ⟨x, settle_skip hx, hcovers⟩

/-- No command but START looks at the tail of the seal queue (R158). -/
theorem not_busy_of_ne_start {c : MailCommand} {s : State} (hp : s.plan.pendingCommand = none) (hc : c ≠ .start) :
    busy c s = false := by
  unfold busy
  rw [hp, decide_eq_false hc, Bool.false_and, Option.isSome_none, Bool.and_false, Bool.or_false]

theorem exec_stop {m : Mailbox} {s : State} (h : Commanded m s) (hp : s.plan.pendingCommand = none)
    (ha : stateAllows .stop s.capture.device s.capture.drainCause = true) :
    exec (.stop m) s = .next (present (answerWith m.tag (doStop m.tag (s.withMailbox 0x03 m)))) :=
  congrArg Host.Outcome.next (offerMailbox_allowed (c := .stop) h (not_busy_of_ne_start hp nofun) ha)

/-- What a STOP that is taken leaves (R175, R176). -/
theorem beginDrain_ends (tag : Byte) (s : State) :
    StopEnded tag s (present (beginDrain tag s))
      ∧ (beginDrain tag s).table.openFrames = [] ∧ (beginDrain tag s).lanes = lanesAllOff true s.lanes
      ∧ (beginDrain tag s).reg.origin = s.reg.origin
      ∧ ∀ f ∈ s.table.openFrames,
        (∀ k, f.slot = some k → ∃ e, .slot e ∈ (beginDrain tag s).table.queue
          ∧ SealedEntry s.livePlan .flushed (s.cutsInto f.number) f e)
        ∧ (f.slot = none → ∃ x, .skip x ∈ (beginDrain tag s).table.queue
          ∧ SkipCovers s.livePlan (s.cutsInto f.number) f x) := by
  obtain ⟨hkeeps, hjoined⟩ := sealAll_lanesCut .flush true (withStop tag s) fun _ => sealStatus_flush
  have hopen := sealAll_closed .flush (lanesCut true (withStop tag s))
  have horigin := sealAll_origin .flush true (withStop tag s)
  rw [beginDrain_eq]
  generalize sealAll .flush (lanesCut true (withStop tag s)) = v at *
  obtain ⟨c, q, sl, htake⟩ := takeUpEach_besideFrames v.table.queue.length v
  have hsettle : settle v = drainTest (besideFrames v.held v.lanes c q sl v) := congrArg drainTest htake
  refine ⟨?_, ?_, ?_, (settle_reg v ▸ horigin), fun f hf => (hjoined f hf).settled⟩
  · rw [hsettle]
    exact present_drainTest_stop hopen hkeeps.capture hkeeps.plan horigin
  · rw [hsettle, drainTest_table]
    exact hopen
  · rw [hsettle, drainTest_lanes]
    exact hkeeps.lanes

/-- A command that is answered later hands over nothing now (R158, R159). -/
theorem answerWith_none (tag : Byte) (s : State) : answerWith tag (s, none) = s := rfl

theorem doStop_stopped {tag : Byte} {s : State} (h : s.capture.device = .stopped) :
    doStop tag s = (s, some rNothing) := if_pos h

theorem doStop_capturing {tag : Byte} {s : State} (h : s.capture.device ≠ .stopped) :
    doStop tag s = (beginDrain tag s, none) := if_neg h

/-- Settles O50: in STOPPED nothing; else the lanes go OFF, the open frames seal, and the drain is tested. -/
theorem stop : Obligations.Stop := by
  intro m s h hp
  refine ⟨fun hd => ?_, fun hd => ?_⟩
  · rw [exec_stop h hp (by rw [hd]; rfl), doStop_stopped (by exact hd)]
    rfl
  · have hallowed : stateAllows .stop s.capture.device s.capture.drainCause = true := by
      rcases hd with hd | hd <;> rw [hd] <;> rfl
    have hnot : (s.withMailbox 0x03 m).capture.device ≠ .stopped := by
      show s.capture.device ≠ .stopped
      rcases hd with hd | hd <;> rw [hd] <;> exact nofun
    have hexec : exec (.stop m) s = .next (present (beginDrain m.tag (s.withMailbox 0x03 m))) := by
      rw [exec_stop h hp hallowed, doStop_capturing hnot, answerWith_none]
    obtain ⟨hended, hopen, hlanes, horigin, hjoined⟩ := beginDrain_ends m.tag (s.withMailbox 0x03 m)
    have hlive := (beginDrain_inner m.tag (s.withMailbox 0x03 m)).live
    generalize beginDrain m.tag (s.withMailbox 0x03 m) = u at *
    simp only [StopEnded, withMailbox_lanes, withMailbox_reg, withMailbox_table, withMailbox_capture, withMailbox_live,
      withMailbox_generation, withMailbox_livePlan, withMailbox_cutsInto] at hended hlanes horigin hlive hjoined
    rw [← present_table u] at hopen hjoined
    rw [← present_lanes] at hlanes
    rw [← present_reg] at horigin
    rw [← present_plan] at hlive
    exact ⟨present u, hexec, hopen, hlanes, hlive, horigin, hjoined, hended⟩

end Sys2Proof.Machine
end

section
/-! ABORT (R134, R135, R178). -/

namespace Sys2Proof.Machine

/-! ### With nothing to capture (R178) -/

theorem exec_abort {m : Mailbox} {s : State} (h : Commanded m s) (hp : s.plan.pendingCommand = none)
    (ha : stateAllows .abort s.capture.device s.capture.drainCause = true) :
    exec (.abort m) s = .next (present (answerWith m.tag (doAbort (s.withMailbox 0x04 m)))) :=
  congrArg Host.Outcome.next (offerMailbox_allowed (c := .abort) h (not_busy_of_ne_start hp nofun) ha)

theorem answerWith_some (tag : Byte) (r : ResultWord) (s : State) : answerWith tag (s, some r) = answer tag r s := rfl

theorem anyInjection_iff (s : State) : anyInjection s = true ↔ ∃ n : Lane, s.lanes[n].injection ≠ none := by
  simp only [anyInjection, List.any_eq_true, mem_allLanes, true_and, Option.isSome_iff_ne_none]

theorem emptyInjections_none {s : State} (h : ∀ n : Lane, s.lanes[n].injection = none) : emptyInjections s = s := by
  have hlanes : (Vector.ofFn fun n : Lane => { s.lanes[n] with injection := none }) = s.lanes := by
    ext1 i hi
    rw [Vector.getElem_ofFn]
    show { s.lanes[(⟨i, hi⟩ : Lane)] with injection := none } = s.lanes[(⟨i, hi⟩ : Lane)]
    rw [← h ⟨i, hi⟩]
  unfold emptyInjections
  rw [hlanes]

theorem doAbort_stopped {s : State} (h : s.capture.device = .stopped) :
    doAbort s = (emptyInjections s, some (if anyInjection s then rDone else rNothing)) := if_pos h

theorem doAbort_capturing {s : State} (h : s.capture.device ≠ .stopped) : doAbort s = (abortCapture s, some rDone) := if_neg h

/-! ### The slots of the frames that seal (R117, R178) -/

theorem patchedBy_abort {f : Frame} (p : Plan) (h : f.slot ≠ none) : patchedBy .abort p f = false := by
  unfold patchedBy
  rw [sealStatus_abort h]
  simp

/-- The slot of a frame that seals ABORTED goes READY, and no other slot changes. -/
theorem sealOldest_abort_slots {s : State} {f : Frame} {rest : List Frame} (h : s.table.openFrames = f :: rest)
    (hlanes : NoLines s.lanes) (k : Fin 32) :
    (sealOldest .abort s).table.slots[k] = if f.slot = some k then .ready else s.table.slots[k] := by
  obtain ⟨b, r, ls, hseal⟩ := sealOldest_noLines .abort h hlanes
  have hslot := Frame.sealedWith_slot s.livePlan 0 b f
  rw [hseal]
  cases hk : f.slot with
  | none =>
    rw [enqueueSealed_slotless .abort (hslot.trans hk)]
    exact (if_neg nofun).symm
  | some j =>
    rw [enqueueSealed_slot .abort _ (hslot.trans hk), patchedBy_abort _ (by rw [hslot, hk]; exact nofun)]
    show (s.table.slots.set j .ready)[k] = _
    by_cases hj : j = k
    · subst hj
      rw [if_pos rfl]
      exact Vector.getElem_set_self j.isLt
    · rw [if_neg fun e => hj (Option.some.inj e)]
      exact Vector.getElem_set_ne j.isLt k.isLt fun e => hj (Fin.ext e)

/-- The slots once every open frame has sealed ABORTED: READY where a frame held it, and else as before. -/
theorem sealAll_abort_slots {s : State} (hlanes : NoLines s.lanes) (k : Fin 32) :
    ((∃ f ∈ s.table.openFrames, f.slot = some k) → (sealAll .abort s).table.slots[k] = .ready)
      ∧ ((∀ f ∈ s.table.openFrames, f.slot ≠ some k) → (sealAll .abort s).table.slots[k] = s.table.slots[k]) := by
  have each (l : List Frame) (u : State) (h : u.table.openFrames = l) (hu : NoLines u.lanes) :
      ((∃ f ∈ l, f.slot = some k) → (sealEach .abort l.length u).table.slots[k] = .ready)
        ∧ ((∀ f ∈ l, f.slot ≠ some k) → (sealEach .abort l.length u).table.slots[k] = u.table.slots[k]) := by
    induction l generalizing u with
    | nil =>
      rw [List.length_nil, sealEach_zero]
      exact ⟨fun ⟨_, hf, _⟩ => absurd hf List.not_mem_nil, fun _ => rfl⟩
    | cons f rest ih =>
      rw [List.length_cons, sealEach_succ]
      have hfirst := sealOldest_abort_slots h hu k
      obtain ⟨hready, hstay⟩ := ih _ (sealOldest_length .abort h) ((sealOldest_keeps .abort hu).lanes ▸ hu)
      refine ⟨fun ⟨g, hg, hgk⟩ => ?_, fun hnone => ?_⟩
      · by_cases hlater : ∃ g ∈ rest, g.slot = some k
        · exact hready hlater
        · rcases List.mem_cons.mp hg with rfl | hg
          · exact (hstay fun g hg e => hlater ⟨g, hg, e⟩).trans (hfirst.trans (if_pos hgk))
          · exact absurd ⟨g, hg, hgk⟩ hlater
      · refine (hstay fun g hg => hnone g (List.mem_cons_of_mem f hg)).trans (hfirst.trans (if_neg ?_))
        exact hnone f List.mem_cons_self
  exact each s.table.openFrames s rfl hlanes

/-- The slots after the seals of an ABORT. -/
theorem sealAll_lanesCut_slots (keepInjection : Bool) (s : State) (k : Fin 32) :
    ((∃ f ∈ s.table.openFrames, f.slot = some k) →
        (sealAll .abort (lanesCut keepInjection s)).table.slots[k] = .ready)
      ∧ ((∀ f ∈ s.table.openFrames, f.slot ≠ some k) →
        (sealAll .abort (lanesCut keepInjection s)).table.slots[k] = s.table.slots[k]) := by
  have hslot (c : Nat) (f : Frame) : (f.cutBy c).slot = f.slot := by
    obtain ⟨d, h⟩ := f.cutBy_with c
    rw [h]
  obtain ⟨hready, hstay⟩ := sealAll_abort_slots (lanesCut_noLines keepInjection s) k
  refine ⟨fun ⟨f, hf, hk⟩ => hready ⟨f.cutBy (s.cutsInto f.number), List.mem_map_of_mem hf, (hslot _ f).trans hk⟩,
    fun hnone => hstay fun g hg => ?_⟩
  obtain ⟨f, hf, rfl⟩ := List.mem_map.mp hg
  rw [hslot]
  exact hnone f hf

/-! ### Patching is abandoned (R134, R135) -/

section
variable {s : State} {e : SlotEntry} {x : SkipEntry}

theorem abandonPatching_idle : (abandonPatching s).patch = .idle := by unfold abandonPatching; rfl

theorem abandonPatching_openFrames : (abandonPatching s).table.openFrames = s.table.openFrames := by
  unfold abandonPatching; rfl

theorem abandonPatching_slot (k : Fin 32) : (abandonPatching s).table.slots[k] = s.table.slots[k].abandoned := by
  unfold abandonPatching
  exact Vector.getElem_ofFn k.isLt

theorem abandonPatching_slot_ne (k : Fin 32) : (abandonPatching s).table.slots[k] ≠ .patching := by
  rw [abandonPatching_slot]
  cases s.table.slots[k] <;> exact nofun

theorem mem_abandonPatching {y : QueueEntry} (h : y ∈ s.table.queue) :
    abandonEntry s.table.slots y ∈ (abandonPatching s).table.queue := by
  unfold abandonPatching
  exact List.mem_map_of_mem h

theorem abandonPatching_skip (h : .skip x ∈ s.table.queue) : .skip x ∈ (abandonPatching s).table.queue :=
  mem_abandonPatching h

/-- The entry of a slot that is READY is left alone. -/
theorem abandonPatching_ready (h : .slot e ∈ s.table.queue) (hs : s.table.slots[e.slot] = .ready) :
    .slot e ∈ (abandonPatching s).table.queue ∧ (abandonPatching s).table.slots[e.slot] = .ready := by
  have he : abandonEntry s.table.slots (.slot e) = .slot e := if_neg (by rw [hs]; exact nofun)
  exact ⟨he ▸ mem_abandonPatching h, by rw [abandonPatching_slot, hs]; rfl⟩

/-- The entry of a slot that is PATCHING is FILL_ABANDONED, and the slot READY. -/
theorem abandonPatching_patching (h : .slot e ∈ s.table.queue) (hs : s.table.slots[e.slot] = .patching) :
    .slot { e with abandoned := true, patchList := none } ∈ (abandonPatching s).table.queue
      ∧ (abandonPatching s).table.slots[e.slot] = .ready := by
  have he : abandonEntry s.table.slots (.slot e) = .slot { e with abandoned := true, patchList := none } := if_pos hs
  exact ⟨he ▸ mem_abandonPatching h, by rw [abandonPatching_slot, hs]; rfl⟩

end

/-! ### The whole step (R178) -/

/-- The state of a part whose frames have sealed and whose patching is abandoned, once it is STOPPED by ABORT. -/
def abortDone (s : State) : State :=
  handNotice .stopped .abort { s with capture := { s.capture with device := .stopped, drainCause := .none } }

theorem abortCapture_eq (s : State) :
    abortCapture s = abortDone (abandonPatching (sealAll .abort (lanesCut false s))) := by
  rw [← emptyInjections_lanesCut, ← lanesOff_exact]
  rfl

/-- What becomes of the frames that an ABORT seals, and of the entries whose patching it abandons. -/
theorem abort_entries (s : State) (t : FrameTable)
    (ht : (abandonPatching (sealAll .abort (lanesCut false s))).table = t) :
    (∀ f ∈ s.table.openFrames,
        (∀ k, f.slot = some k →
          ∃ e, .slot e ∈ t.queue ∧ SealedEntry s.livePlan .aborted (s.cutsInto f.number) f e
            ∧ e.filled = false ∧ t.slots[k] = .ready)
        ∧ (f.slot = none → ∃ x, .skip x ∈ t.queue ∧ SkipCovers s.livePlan (s.cutsInto f.number) f x))
      ∧ ∀ e, .slot e ∈ s.table.queue → (∀ f ∈ s.table.openFrames, f.slot ≠ some e.slot) →
          s.table.slots[e.slot] = .patching →
          .slot { e with abandoned := true, patchList := none } ∈ t.queue ∧ t.slots[e.slot] = .ready := by
  obtain ⟨hkeeps, hjoined⟩ := sealAll_lanesCut .abort false s fun _ => sealStatus_abort
  have hslots := sealAll_lanesCut_slots false s
  generalize sealAll .abort (lanesCut false s) = v at *
  subst ht
  refine ⟨fun f hf => ?_, fun e he hnone hs => ?_⟩
  · obtain ⟨hslot, hslotless⟩ := hjoined f hf
    refine ⟨fun k hk => ?_, fun hk => ?_⟩
    · obtain ⟨e, he, hentry, hfilled⟩ := hslot k hk
      obtain rfl : k = e.slot := Option.some.inj (hk.symm.trans hentry.1)
      obtain ⟨hmem, hready⟩ := abandonPatching_ready he ((hslots e.slot).1 ⟨f, hf, hk⟩)
      exact ⟨e, hmem, hentry, hfilled, hready⟩
    · obtain ⟨x, hx, hcovers⟩ := hslotless hk
      exact ⟨x, abandonPatching_skip hx, hcovers⟩
  · exact abandonPatching_patching (hkeeps.entries e he) (((hslots e.slot).2 hnone).trans hs)

/-- The end of the step of an ABORT: the answer is handed over, and the Report Unit chooses (R142, R178). -/
theorem present_abortDone (tag : Byte) (s : State) :
    let t := present (answer tag rDone (abortDone s))
    t.table = s.table ∧ t.lanes = s.lanes ∧ t.patch = s.patch
      ∧ t.capture = { s.capture with device := .stopped, drainCause := .none } ∧ t.plan = s.plan
      ∧ Answered tag (0x50, 0x00) .stopped t
      ∧ t.report.stateNotice = some { device := .stopped, cause := .abort, generation := s.plan.generation,
                                      origin := s.reg.origin } :=
  ⟨present_table _, present_lanes _, present_patch _, present_capture _, present_plan _, answered_present tag rDone _,
    (present_chosen _).stateNotice⟩

/-- What an ABORT leaves beside the frames and the entries: the lanes, the plan and the end of the capture (R178). -/
theorem abort_ends (tag : Byte) {s t : State} (ht : present (answer tag rDone (abortCapture s)) = t) :
    t.table = (abandonPatching (sealAll .abort (lanesCut false s))).table ∧ t.table.openFrames = []
      ∧ t.lanes = lanesAllOff false s.lanes ∧ t.patch = .idle
      ∧ t.capture = { s.capture with device := .stopped, drainCause := .none } ∧ t.plan = s.plan
      ∧ Answered tag (0x50, 0x00) .stopped t
      ∧ t.report.stateNotice = some { device := .stopped, cause := .abort, generation := s.plan.generation,
                                      origin := s.reg.origin } := by
  obtain ⟨hkeeps, -⟩ := sealAll_lanesCut .abort false s fun _ => sealStatus_abort
  have hopen := sealAll_closed .abort (lanesCut false s)
  have horigin := sealAll_origin .abort false s
  rw [abortCapture_eq] at ht
  generalize sealAll .abort (lanesCut false s) = v at *
  obtain ⟨htable, hlanes, hpatch, hcapture, hplan, hanswered, hnotice⟩ := present_abortDone tag (abandonPatching v)
  rw [ht] at htable hlanes hpatch hcapture hplan hanswered hnotice
  rw [abandonPatching_lanes, hkeeps.lanes] at hlanes
  rw [abandonPatching_idle] at hpatch
  rw [abandonPatching_capture, hkeeps.capture] at hcapture
  rw [abandonPatching_plan, hkeeps.plan] at hplan hnotice
  rw [abandonPatching_reg, horigin] at hnotice
  refine ⟨htable, ?_, hlanes, hpatch, hcapture, hplan, hanswered, hnotice⟩
  rw [htable, abandonPatching_openFrames, hopen]

/-- Settles O51: in STOPPED the injections are emptied; else the lanes go OFF, the open frames seal, and patching is
abandoned. -/
theorem abort : Obligations.Abort := by
  intro m s h hp c emptied
  refine ⟨fun hd hinj => ?_, fun hd hinj => ?_, fun hd => ?_⟩
  · rw [exec_abort h hp (by rw [hd]; rfl), doAbort_stopped (by exact hd), if_pos ((anyInjection_iff c).mpr hinj),
      answerWith_some]
    rfl
  · have hnone : ¬anyInjection c = true := fun ha => by
      obtain ⟨n, hn⟩ := (anyInjection_iff c).mp ha
      exact hn (hinj n)
    rw [exec_abort h hp (by rw [hd]; rfl), doAbort_stopped (by exact hd), if_neg hnone, emptyInjections_none (by exact hinj),
      answerWith_some]
    rfl
  · have hallowed : stateAllows .abort s.capture.device s.capture.drainCause = true := by
      rcases hd with hd | hd | ⟨hd, hcause⟩
      · rw [hd]; rfl
      · rw [hd]; rfl
      · rw [hd, hcause]; rfl
    have hnot : c.capture.device ≠ .stopped := by
      show s.capture.device ≠ .stopped
      rcases hd with hd | hd | ⟨hd, -⟩ <;> rw [hd] <;> exact nofun
    have hexec : exec (.abort m) s = .next (present (answer m.tag rDone (abortCapture c))) := by
      rw [exec_abort h hp hallowed, doAbort_capturing hnot, answerWith_some]
    generalize ht : present (answer m.tag rDone (abortCapture c)) = t at hexec
    obtain ⟨htable, hopen, hlanes, hpatch, hcapture, hplan, hanswered, hnotice⟩ := abort_ends m.tag ht
    obtain ⟨hframes, hentries⟩ := abort_entries c t.table htable.symm
    simp only [c, withMailbox_table, withMailbox_livePlan, withMailbox_cutsInto] at hframes hentries
    simp only [c, withMailbox_lanes, withMailbox_capture, withMailbox_generation, withMailbox_reg]
      at hlanes hcapture hnotice
    refine ⟨t, hexec, hopen, hlanes, hframes, hentries, hpatch, fun k => ?_, hcapture, ?_, ?_, hanswered, hnotice⟩
    · rw [htable]
      exact abandonPatching_slot_ne k
    · rw [hplan, withMailbox_live]
    · rw [hplan, withMailbox_pendingCommand, hp]

end Sys2Proof.Machine
end

section
/-! The Patch Engine's take-up as far as it goes (R129, R133): an IDLE context is left with no PATCHING entry, and how often the
take-up is tried makes no difference beyond the number of PATCHING entries. -/

namespace Sys2Proof.Machine

/-! ### The first PATCHING entry (R129) -/

theorem firstPatching_mem {t : FrameTable} {e : SlotEntry} (h : firstPatching t = some e) :
    .slot e ∈ t.queue ∧ t.slots[e.slot] = .patching := by
  obtain ⟨x, hx, hf⟩ := List.exists_of_findSome?_eq_some h
  cases x with
  | skip x => cases hf
  | slot e' =>
    dsimp only at hf
    split at hf
    · cases hf
      exact ⟨hx, ‹_›⟩
    · cases hf

/-- An entry whose slot is PATCHING, with no such entry before it, is the first. -/
theorem firstPatching_eq {t : FrameTable} {older younger : List QueueEntry} {e : SlotEntry}
    (ht : t.queue = older ++ .slot e :: younger) (he : t.slots[e.slot] = .patching)
    (hold : ∀ x, .slot x ∈ older → t.slots[x.slot] ≠ .patching) : firstPatching t = some e := by
  have hnone := (firstPatching_none_iff (t := { t with queue := older })).mpr hold
  unfold firstPatching at hnone ⊢
  rw [ht, List.findSome?_append, hnone, Option.none_or, List.findSome?_cons]
  simp only [if_pos he]

/-! ### A frame's patching completes (R133) -/

/-- A frame's patching completes while the context is IDLE: `g` is what that makes of the entries of the seal queue. -/
theorem finishPatch_eq {g : QueueEntry → QueueEntry} (k : Fin 32) {s : State} (hi : s.patch = .idle)
    (hg : ∀ x, g x = onSlotEntry k (fun e => { e with filled := true, patchList := none }) x) :
    finishPatch k s = { s with table := { s.table with
      slots := s.table.slots.set k .ready, queue := s.table.queue.map g } } := by
  rw [funext hg]
  unfold finishPatch setSlot
  rw [← hi]

/-- The slots that are PATCHING once a frame's patching has completed: those that were, without the frame's. -/
theorem finishPatch_patching_iff (k j : Fin 32) (s : State) :
    (finishPatch k s).table.slots[j] = .patching ↔ s.table.slots[j] = .patching ∧ j ≠ k := by
  show (s.table.slots.set k .ready)[j] = .patching ↔ _
  by_cases h : j = k
  · subst h
    simp
  · have hne : (k : Nat) ≠ j := fun e => h (Fin.ext e.symm)
    rw [Fin.getElem_fin, Vector.getElem_set_ne _ _ hne, ← Fin.getElem_fin]
    exact (and_iff_left h).symm

theorem finishPatch_entrySlots (k : Fin 32) (s : State) : (finishPatch k s).table.entrySlots = s.table.entrySlots := by
  refine (List.filterMap_map ..).trans (List.filterMap_congr fun x _ => ?_)
  cases x with
  | skip x => rfl
  | slot e =>
    show (onSlotEntry k _ (.slot e)).slotOf = some e.slot
    unfold onSlotEntry
    dsimp only
    split <;> rfl

/-! ### How many entries are PATCHING -/

/-- The number of seal-queue entries whose slot is PATCHING. -/
def FrameTable.patchingCount (t : FrameTable) : Nat := t.entrySlots.countP fun k => decide (t.slots[k] = .patching)

theorem mem_entrySlots {t : FrameTable} {e : SlotEntry} (h : .slot e ∈ t.queue) : e.slot ∈ t.entrySlots :=
  List.mem_filterMap.mpr ⟨_, h, rfl⟩

theorem patchingCount_le (t : FrameTable) : t.patchingCount ≤ t.queue.length :=
  List.countP_le_length.trans (List.length_filterMap_le _ _)

theorem firstPatching_of_count {t : FrameTable} (h : t.patchingCount = 0) : firstPatching t = none :=
  firstPatching_none_iff.mpr fun _ he hp => List.countP_eq_zero.mp h _ (mem_entrySlots he) (decide_eq_true hp)

/-- A completion takes the frame's entry out of the count. -/
theorem finishPatch_count {s : State} {e : SlotEntry} (h : firstPatching s.table = some e) :
    (finishPatch e.slot s).table.patchingCount < s.table.patchingCount := by
  obtain ⟨hmem, hpatching⟩ := firstPatching_mem h
  have hcount : (finishPatch e.slot s).table.patchingCount
      = (s.table.entrySlots.filter fun k => decide (s.table.slots[k] = .patching)).countP fun k => decide (k ≠ e.slot) := by
    rw [FrameTable.patchingCount, finishPatch_entrySlots, List.countP_filter]
    refine List.countP_congr fun k _ => ?_
    rw [decide_eq_true_iff, finishPatch_patching_iff, Bool.and_eq_true, decide_eq_true_iff, decide_eq_true_iff, and_comm]
  rw [hcount]
  refine (List.countP_lt_length_iff.mpr ⟨e.slot, ?_, ?_⟩).trans_eq List.countP_eq_length_filter.symm
  · exact List.mem_filter.mpr ⟨mem_entrySlots hmem, decide_eq_true hpatching⟩
  · exact decide_eq_false (not_not.mpr rfl)

/-! ### The take-up -/

section
variable {s : State} {e : SlotEntry} (fuel : Nat)

/-- An IDLE context goes ACTIVE at the first position that fills something. -/
theorem takeUpEach_some {w : PatchWork} (hi : s.patch = .idle) (hf : firstPatching s.table = some e)
    (hn : nextInRuns s.livePlan.static e.slot 0 (e.patchList.getD []) = some w) :
    takeUpEach (fuel + 1) s = { s with patch := .active w } := by
  simp only [takeUpEach, hi, hf, hn]

/-- A frame none of whose positions fills anything completes at once, and the next is taken up. -/
theorem takeUpEach_finish (hi : s.patch = .idle) (hf : firstPatching s.table = some e)
    (hn : nextInRuns s.livePlan.static e.slot 0 (e.patchList.getD []) = none) :
    takeUpEach (fuel + 1) s = takeUpEach fuel (finishPatch e.slot s) := by
  simp only [takeUpEach, hi, hf, hn]

end

/-- To show what a take-up that goes far enough comes to: the context is ACTIVE, or no entry is PATCHING, or the first PATCHING
entry is taken up, or it completes at once and the take-up goes on. -/
theorem takeUpEach_induction {P : Nat → State → Prop}
    (active : ∀ fuel s w, s.patch = .active w → P fuel s)
    (nothing : ∀ fuel s, s.patch = .idle → firstPatching s.table = none → P fuel s)
    (takes : ∀ fuel s e w, s.patch = .idle → firstPatching s.table = some e →
      nextInRuns s.livePlan.static e.slot 0 (e.patchList.getD []) = some w → P (fuel + 1) s)
    (finishes : ∀ fuel s e, s.patch = .idle → firstPatching s.table = some e →
      nextInRuns s.livePlan.static e.slot 0 (e.patchList.getD []) = none → P fuel (finishPatch e.slot s) →
      P (fuel + 1) s)
    {fuel : Nat} {s : State} (h : s.table.patchingCount ≤ fuel) : P fuel s := by
  induction fuel generalizing s with
  | zero =>
    cases hi : s.patch with
    | active w => exact active _ _ w hi
    | idle => exact nothing _ _ hi (firstPatching_of_count (Nat.le_zero.mp h))
  | succ fuel ih =>
    cases hi : s.patch with
    | active w => exact active _ _ w hi
    | idle =>
      cases hf : firstPatching s.table with
      | none => exact nothing _ _ hi hf
      | some e =>
        cases hn : nextInRuns s.livePlan.static e.slot 0 (e.patchList.getD []) with
        | some w => exact takes _ _ e w hi hf hn
        | none => exact finishes _ _ e hi hf hn (ih (Nat.le_of_lt_succ ((finishPatch_count hf).trans_le h)))

/-- A take-up that goes far enough leaves an IDLE context with no entry PATCHING. -/
theorem takeUpEach_complete {fuel : Nat} {s : State} (h : s.table.patchingCount ≤ fuel)
    (hi : (takeUpEach fuel s).patch = .idle) : firstPatching (takeUpEach fuel s).table = none := by
  refine takeUpEach_induction (P := fun fuel s => (takeUpEach fuel s).patch = .idle →
    firstPatching (takeUpEach fuel s).table = none) ?_ ?_ ?_ ?_ h hi
  · intro fuel s w hw hi
    rw [takeUpEach_active fuel hw, hw] at hi
    cases hi
  · intro fuel s hs hf _
    rwa [takeUpEach_none fuel hs hf]
  · intro fuel s e w hs hf hn hi
    rw [takeUpEach_some fuel hs hf hn] at hi
    cases hi
  · intro fuel s e hs hf hn ih
    rwa [takeUpEach_finish fuel hs hf hn]

/-- One try more changes nothing. -/
theorem takeUpEach_succ {fuel : Nat} {s : State} (h : s.table.patchingCount ≤ fuel) :
    takeUpEach (fuel + 1) s = takeUpEach fuel s := by
  refine takeUpEach_induction (P := fun fuel s => takeUpEach (fuel + 1) s = takeUpEach fuel s) ?_ ?_ ?_ ?_ h
  · intro fuel s w hw
    rw [takeUpEach_active _ hw, takeUpEach_active _ hw]
  · intro fuel s hs hf
    rw [takeUpEach_none _ hs hf, takeUpEach_none _ hs hf]
  · intro fuel s e w hs hf hn
    rw [takeUpEach_some _ hs hf hn, takeUpEach_some _ hs hf hn]
  · intro fuel s e hs hf hn ih
    rw [takeUpEach_finish _ hs hf hn, ih, takeUpEach_finish _ hs hf hn]

/-- The take-up of a step leaves an IDLE context with no entry PATCHING (R129). -/
theorem takeUp_complete {s : State} (h : (takeUp s).patch = .idle) : firstPatching (takeUp s).table = none :=
  takeUpEach_complete (patchingCount_le _) h

/-- The seal queue is not empty where there is a first PATCHING entry. -/
theorem takeUp_succ {s : State} {e : SlotEntry} (hf : firstPatching s.table = some e) :
    takeUp s = takeUpEach (s.table.queue.length - 1 + 1) s := by
  have hpos := List.length_pos_of_mem (firstPatching_mem hf).1
  rw [takeUp, Nat.sub_add_cancel hpos]

theorem takeUp_some {s : State} {e : SlotEntry} {w : PatchWork} (hi : s.patch = .idle)
    (hf : firstPatching s.table = some e)
    (hn : nextInRuns s.livePlan.static e.slot 0 (e.patchList.getD []) = some w) :
    takeUp s = { s with patch := .active w } := by
  rw [takeUp_succ hf, takeUpEach_some _ hi hf hn]

/-- A first entry none of whose positions fills anything completes, and the take-up begins again (R129, R133). -/
theorem takeUp_finish {s : State} {e : SlotEntry} (hi : s.patch = .idle) (hf : firstPatching s.table = some e)
    (hn : nextInRuns s.livePlan.static e.slot 0 (e.patchList.getD []) = none) :
    takeUp s = takeUp (finishPatch e.slot s) := by
  have hpos := List.length_pos_of_mem (firstPatching_mem hf).1
  have hless := finishPatch_count hf
  have hle := patchingCount_le s.table
  have hlength : (finishPatch e.slot s).table.queue.length = s.table.queue.length - 1 + 1 := by
    rw [Nat.sub_add_cancel hpos]
    exact List.length_map _
  rw [takeUp_succ hf, takeUpEach_finish _ hi hf hn, takeUp, hlength, takeUpEach_succ (by omega)]

end Sys2Proof.Machine
end

section
/-! After every step nothing is left for the part to do by itself (R129, R142, R176): the rows at rest keep it so, and the
others end by settling and by the Report Unit's choice (logs 7, 21). -/

namespace Sys2Proof.Machine

/-! ### Nothing to take up and no drain to end -/

/-- An IDLE patch context has no PATCHING entry to take up (R129), and no drain is complete (R176). -/
def Settled (s : State) : Prop :=
  (s.patch = .idle → firstPatching s.table = none)
    ∧ ¬(s.capture.device = .draining ∧ s.table.openFrames = [] ∧ anyPatching s.table = false)

theorem quiet_iff {s : State} : Quiet s ↔ Settled s ∧ ChoiceInv s := and_assoc.symm

theorem anyPatching_false_iff {t : FrameTable} : anyPatching t = false ↔ ∀ k : Fin 32, t.slots[k] ≠ .patching := by
  unfold anyPatching
  simp only [List.any_eq_false, decide_eq_true_eq]
  constructor
  · exact fun h k => h _ (Vector.mem_toList_iff.mpr (Vector.getElem_mem k.isLt))
  · intro h x hx
    obtain ⟨i, hi, rfl⟩ := Vector.getElem_of_mem (Vector.mem_toList_iff.mp hx)
    exact h ⟨i, hi⟩

/-- A completed drain leaves the device STOPPED, and the patch context and the frame table as they were. -/
theorem completeDrain_rest (s : State) :
    (completeDrain s).patch = s.patch ∧ (completeDrain s).table = s.table
      ∧ (completeDrain s).capture = { s.capture with device := .stopped, drainCause := .none } := by
  unfold completeDrain answerStop
  dsimp only
  split
  · split <;> exact ⟨rfl, rfl, rfl⟩
  · exact ⟨rfl, rfl, rfl⟩
  · exact ⟨rfl, rfl, rfl⟩

/-- After the take-up and the completion test of a step there is nothing left of either. -/
theorem settle_settled (s : State) : Settled (settle s) := by
  have hup := takeUp_complete (s := s)
  unfold settle drainTest
  generalize takeUp s = u at hup
  split
  · obtain ⟨hpatch, htable, hcapture⟩ := completeDrain_rest u
    refine ⟨by rwa [hpatch, htable], fun h => ?_⟩
    rw [hcapture] at h
    cases h.1
  · exact ⟨hup, ‹_›⟩

/-- The patch context, the seal queue, the slots, the open frames and the device state stay. -/
structure SameWork (s t : State) : Prop where
  patch      : t.patch = s.patch := by rfl
  queue      : t.table.queue = s.table.queue := by rfl
  slots      : t.table.slots = s.table.slots := by rfl
  openFrames : t.table.openFrames = s.table.openFrames := by rfl
  device     : t.capture.device = s.capture.device := by rfl

theorem SameWork.trans {s t u : State} (h : SameWork s t) (k : SameWork t u) : SameWork s u where
  patch := k.patch.trans h.patch
  queue := k.queue.trans h.queue
  slots := k.slots.trans h.slots
  openFrames := k.openFrames.trans h.openFrames
  device := k.device.trans h.device

theorem SameWork.settled {s t : State} (h : SameWork s t) (hs : Settled s) : Settled t := by
  unfold Settled firstPatching anyPatching at *
  rwa [h.patch, h.queue, h.slots, h.openFrames, h.device]

/-- No slot is PATCHING, and the device is not DRAINING. -/
theorem settled_of_noPatching {s : State} (hslots : ∀ k : Fin 32, s.table.slots[k] ≠ .patching)
    (hdevice : s.capture.device ≠ .draining) : Settled s :=
  ⟨fun _ => firstPatching_none_iff.mpr fun e _ => hslots e.slot, fun h => hdevice h.1⟩

/-! ### The Report Unit has nothing to choose -/

/-- And what the Report Unit chooses from stays. -/
structure SameRest (s t : State) : Prop extends SameWork s t where
  presented      : t.report.presented = s.report.presented := by rfl
  producerOwed   : t.report.producerOwed = s.report.producerOwed := by rfl
  ackWaiting     : t.report.ackWaiting = s.report.ackWaiting := by rfl
  snapshotWrites : t.report.snapshotWrites = s.report.snapshotWrites := by rfl
  stateNotice    : t.report.stateNotice = s.report.stateNotice := by rfl
  latches        : t.report.latches = s.report.latches := by rfl
  unconsumed     : t.report.unconsumed = s.report.unconsumed := by rfl
  live           : t.plan.live = s.plan.live := by rfl

theorem SameRest.choiceInv {s t : State} (h : SameRest s t) (hs : ChoiceInv s) : ChoiceInv t := by
  unfold ChoiceInv at *
  rw [present_eq_iff] at *
  unfold NothingToPresent ringHasRoom ReportUnit.lowestDue offeredHead at *
  rwa [h.presented, h.producerOwed, h.ackWaiting, h.snapshotWrites, h.stateNotice, h.latches, h.unconsumed, h.live,
    h.queue, h.slots]

theorem present_sameWork (s : State) : SameWork s (present s) := by
  rw [(present_chosen s).only]
  exact {}

/-! ### Operations that keep both -/

/-- A state with nothing to take up and no drain to end stays one, and so does one with nothing to present. -/
structure Rests (s t : State) : Prop where
  settled : Settled s → Settled t
  choice  : ChoiceInv s → ChoiceInv t

theorem SameRest.rests {s t : State} (h : SameRest s t) : Rests s t := ⟨h.settled, h.choiceInv⟩

theorem Rests.rfl {s : State} : Rests s s := ⟨id, id⟩

theorem Rests.trans {s t u : State} (h : Rests s t) (k : Rests t u) : Rests s u :=
  ⟨k.settled ∘ h.settled, k.choice ∘ h.choice⟩

theorem Rests.ite {s t u : State} {c : Prop} [Decidable c] (ht : Rests s t) (hu : Rests s u) :
    Rests s (if c then t else u) := by
  split
  · exact ht
  · exact hu

/-- An operation that ends with the Report Unit's choice (log 7). -/
theorem rests_present {s u : State} (h : Settled s → Settled u) : Rests s (present u) :=
  ⟨fun hs => (present_sameWork u).settled (h hs), fun _ => present_present u⟩

/-! ### The commands (R158) -/

theorem answer_sameWork (tag : Byte) (r : ResultWord) (s : State) : SameWork s (answer tag r s) := {}

theorem commitPlan_settled (p : Plan) {s : State} (h : Settled s) : Settled (commitPlan p s).1 := by
  unfold commitPlan
  split
  · split
    · exact h
    · exact ⟨h.1, fun hd => nomatch hd.1⟩
  · split
    · exact h
    · split
      · exact h
      · split
        · exact h
        · dsimp only
          exact settle_settled _

theorem doStart_settled (arg0 arg1 : Count) {s : State} (h : Settled s) : Settled (doStart arg0 arg1 s).1 := by
  unfold doStart
  split
  · exact h
  · exact ⟨h.1, fun hd => nomatch hd.1⟩

theorem beginDrain_settled (tag : Byte) (s : State) : Settled (beginDrain tag s) := by
  rw [beginDrain_eq]
  exact settle_settled _

theorem doStop_settled (tag : Byte) {s : State} (h : Settled s) : Settled (doStop tag s).1 := by
  unfold doStop
  split
  · exact h
  · dsimp only
    exact beginDrain_settled tag s

/-- An ABORT that is taken leaves no slot PATCHING (R135) and the device STOPPED. -/
theorem abortCapture_settled (s : State) : Settled (abortCapture s) := by
  rw [abortCapture_eq]
  generalize sealAll .abort (lanesCut false s) = v
  have hslots := abandonPatching_slot_ne (s := v)
  generalize abandonPatching v = u at hslots ⊢
  exact settled_of_noPatching hslots nofun

theorem doAbort_settled {s : State} (h : Settled s) : Settled (doAbort s).1 := by
  unfold doAbort
  split
  · exact SameWork.settled (s := s) {} h
  · exact abortCapture_settled s

theorem doFlush_settled {s : State} (h : Settled s) : Settled (doFlush s).1 := by
  unfold doFlush
  split
  · exact h
  · dsimp only
    exact settle_settled _

/-- A slot that is not PATCHING takes another state that is not PATCHING either. -/
theorem setSlot_patching_iff {k : Fin 32} {st : SlotState} {s : State} (hst : st ≠ .patching)
    (hk : s.table.slots[k] ≠ .patching) (j : Fin 32) :
    (setSlot k st s).table.slots[j] = .patching ↔ s.table.slots[j] = .patching := by
  show (s.table.slots.set k st)[j] = .patching ↔ _
  by_cases h : j = k
  · subst h
    rw [Fin.getElem_fin, Vector.getElem_set_self]
    exact iff_of_false hst hk
  · have hne : (k : Nat) ≠ j := fun e => h (Fin.ext e.symm)
    rw [Fin.getElem_fin, Vector.getElem_set_ne _ _ hne, ← Fin.getElem_fin]

theorem setSlot_settled {k : Fin 32} {st : SlotState} {s : State} (hst : st ≠ .patching)
    (hk : s.table.slots[k] ≠ .patching) (h : Settled s) : Settled (setSlot k st s) := by
  have hslots := setSlot_patching_iff hst hk
  obtain ⟨hidle, hdrain⟩ := h
  refine ⟨fun hi => firstPatching_none_iff.mpr fun e he hp => ?_, fun ⟨hd, ho, hp⟩ => hdrain ⟨hd, ho, ?_⟩⟩
  · exact firstPatching_none_iff.mp (hidle hi) e he ((hslots e.slot).mp hp)
  · exact anyPatching_false_iff.mpr fun j hj => anyPatching_false_iff.mp hp j ((hslots j).mpr hj)

theorem doRelease_settled (arg0 : Count) {s : State} (h : Settled s) : Settled (doRelease arg0 s).1 := by
  unfold doRelease
  split
  · dsimp only
    split
    · rename_i hheld
      exact setSlot_settled nofun (by rw [hheld]; exact nofun) h
    · exact h
  · exact h

theorem doSnapshot_settled (tag : Byte) {s : State} (h : Settled s) : Settled (doSnapshot tag s).1 := by
  unfold doSnapshot
  generalize snapshotWritesOf s = writes
  exact SameWork.settled (s := s) {} h

theorem doClearErrors_settled {s : State} (h : Settled s) : Settled (doClearErrors s).1 := by
  unfold doClearErrors
  split
  · exact SameWork.settled (s := s) {} h
  · exact h

theorem doInject_settled (arg0 arg1 arg2 : Count) {s : State} (h : Settled s) : Settled (doInject arg0 arg1 arg2 s).1 := by
  unfold doInject
  split
  · dsimp only
    split
    · exact h
    · split
      · exact h
      · exact SameWork.settled (s := s) {} h
  · exact h

theorem perform_settled (c : MailCommand) (x : TakenCommand) {s : State} (h : Settled s) : Settled (perform c x s).1 := by
  cases c with
  | commit => exact commitPlan_settled _ h
  | start => exact doStart_settled _ _ h
  | stop => exact doStop_settled _ h
  | abort => exact doAbort_settled h
  | flush => exact doFlush_settled h
  | release => exact doRelease_settled _ h
  | snapshot => exact doSnapshot_settled _ h
  | clearErrors => exact doClearErrors_settled h
  | inject => exact doInject_settled _ _ _ h

theorem answerWith_settled (tag : Byte) {r : State × Option ResultWord} (h : Settled r.1) : Settled (answerWith tag r) := by
  unfold answerWith
  split
  · exact h
  · exact (answer_sameWork _ _ _).settled h

theorem takeCommand_settled (x : TakenCommand) {s : State} (h : Settled s) : Settled (takeCommand x s) := by
  unfold takeCommand
  split
  · exact (answer_sameWork _ _ s).settled h
  · split
    · exact (answer_sameWork _ _ s).settled h
    · split
      · exact answerWith_settled _ (perform_settled _ x h)
      · exact (answer_sameWork _ _ s).settled h

/-! ### The fabric port (R2, R5) -/

theorem consumerActs_sameWork (v : Count) (s : State) : SameWork s (consumerActs v s) := by
  unfold consumerActs
  split
  · exact {}
  · dsimp only
    split
    · exact {}
    · split
      · exact {}
      · split <;> exact {}

theorem planWriteEffect_rests (w : FabricWrite) (s : State) : Rests s (planWriteEffect w s) := by
  refine rests_present fun h => ?_
  have hconsumer (off len : Nat) {u : State} (hu : Settled u) : Settled (planConsumer off len u) := by
    unfold planConsumer
    split
    · exact (consumerActs_sameWork _ u).settled hu
    · exact hu
  have hcommand (off len : Nat) {u : State} (hu : Settled u) : Settled (planCommand off len u) := by
    unfold planCommand
    split
    · exact takeCommand_settled _ hu
    · exact hu
  exact hcommand _ _ (hconsumer _ _ (SameWork.settled (s := s) {} h))

theorem hold_sameRest (r : FabricRequest) (lane : Option Lane) (ds : List Derived) (s : State) :
    SameRest s (hold r lane ds s) := by
  cases ds <;> exact {}

theorem landingEffect_rests (n : Lane) (w : FabricWrite) (s : State) : Rests s (landingEffect n w s) :=
  rests_present fun _ => (hold_sameRest _ _ _ _).settled (settle_settled _)

theorem takeRequest_rests (r : FabricRequest) (s : State) : Rests s (takeRequest r s) := by
  cases r with
  | read a len tag =>
    exact (hold_sameRest (.read a len tag) none [{ kind := .forward, req := .read a.toNat len tag }] s).rests
  | write w =>
    show Rests s (takeWrite w s)
    unfold takeWrite
    split
    · exact (hold_sameRest _ _ _ s).rests.trans (planWriteEffect_rests w _)
    · exact landingEffect_rests _ w s
    · exact (hold_sameRest _ _ _ s).rests

theorem offered_rests (os : List FabricRequest) (s : State) : Rests s { s with offered := os } :=
  SameRest.rests {}

theorem serveList_rests (l : List FabricRequest) (s : State) : Rests s (serveList l s) := by
  induction l generalizing s with
  | nil => exact offered_rests [] s
  | cons r rest ih => exact .ite (offered_rests _ s) ((takeRequest_rests r s).trans (ih _))

theorem serve_rests (s : State) : Rests s (serve s) := serveList_rests _ s

theorem offer_rests (r : FabricRequest) (s : State) : Rests s (offer r s) :=
  .ite (takeRequest_rests r s) ((offered_rests _ s).trans (serve_rests _))

/-! ### The memory port (R12) -/

theorem derivedTaken_rests (s : State) : Rests s (derivedTaken s) := by
  unfold derivedTaken
  split
  · exact .rfl
  · split
    · exact .rfl
    · exact (SameRest.rests (s := s) {}).trans (serve_rests _)

theorem takePresented_sameWork (w : ReportWrite) (s : State) : SameWork s (takePresented w s) := {}

theorem reportWordTaken_rests (s : State) : Rests s (reportWordTaken s) := by
  unfold reportWordTaken
  split
  · exact .ite .rfl (rests_present (takePresented_sameWork _ s).settled)
  · exact .ite .rfl (rests_present (takePresented_sameWork _ s).settled)
  · exact .rfl

theorem snapshotWriteTaken_rests (s : State) : Rests s (snapshotWriteTaken s) := by
  have hends (u : State) : SameWork u (snapshotEnds u) := by
    unfold snapshotEnds
    split <;> exact {}
  unfold snapshotWriteTaken
  split
  · exact .ite .rfl (rests_present ((takePresented_sameWork _ s).trans (hends _)).settled)
  · exact .rfl

theorem fillWriteTaken_rests (s : State) : Rests s (fillWriteTaken s) := by
  unfold fillWriteTaken
  split
  · exact .rfl
  · split
    · exact .rfl
    · exact .ite .rfl (rests_present fun _ => settle_settled _)

/-! ### Records (R139) -/

/-- The head of the seal queue leaves it when its FRAME record is taken: an offered head has no PATCHING slot (R122). -/
theorem frameRecordTaken_settled {s : State} (hhead : offeredHead s.table ≠ none) (h : Settled s) :
    Settled (frameRecordTaken s) := by
  have leaves {x : QueueEntry} {rest : List QueueEntry} (hq : s.table.queue = x :: rest) :
      Settled { s with table := { s.table with queue := rest } } := by
    refine ⟨fun hi => firstPatching_none_iff.mpr fun e he => ?_, h.2⟩
    exact firstPatching_none_iff.mp (h.1 hi) e (hq ▸ List.mem_cons_of_mem _ he)
  unfold frameRecordTaken
  split
  · exact h
  · rename_i e rest hq
    have hready : s.table.slots[e.slot] = .ready := by
      by_contra hr
      exact hhead (by simp only [offeredHead, hq, if_neg hr])
    exact setSlot_settled nofun (by show s.table.slots[e.slot] ≠ _; rw [hready]; exact nofun) (leaves hq)
  · exact leaves ‹_›

theorem recordEffect_settled {k : RecordKind} {s : State} (hhead : k = .frame → offeredHead s.table ≠ none)
    (h : Settled s) : Settled (recordEffect k s) := by
  cases k with
  | state =>
    unfold recordEffect
    dsimp only
    split
    · exact SameWork.settled (s := s) {} h
    · exact h
  | error latch voided => exact SameWork.settled (s := s) {} h
  | frame => exact frameRecordTaken_settled (hhead rfl) h

theorem recordTaken_keeps_choice {s : State} (h : ChoiceInv s) : ChoiceInv (recordTaken s) := by
  unfold recordTaken
  split
  · split
    · exact h
    · exact present_present _
  · exact h

/-- While a FRAME record is presented the head is one that is offered. -/
theorem SlotInv.offered {s : State} (h : SlotInv s) (hp : s.report.framePresented = true) : offeredHead s.table ≠ none := by
  obtain ⟨-, -, -, -, -, hoffered⟩ := h
  exact hoffered hp

theorem recordTaken_keeps_settled {s : State} (hslots : SlotInv s) (h : Settled s) : Settled (recordTaken s) := by
  unfold recordTaken
  split
  · rename_i k addr data hp
    split
    · exact h
    · refine (present_sameWork _).settled ?_
      have hcount (u : State) : SameWork u (countRecord u) := {}
      refine (hcount _).settled (recordEffect_settled (fun hk => ?_) ((takePresented_sameWork _ s).settled h))
      subst hk
      exact hslots.offered (by unfold ReportUnit.framePresented; rw [hp])
  · exact h

/-! ### The timers (R113, R151) -/

theorem sealTimerExpires_rests (s : State) : Rests s (sealTimerExpires s) := by
  cases h : s.table.sealTimer with
  | idle =>
    rw [sealTimerExpires_idle h]
    exact .rfl
  | running number r =>
    rw [sealTimerExpires_running h]
    exact Rests.trans (rests_present fun _ => settle_settled _) (serve_rests _)

theorem attentionExpires_rests (s : State) : Rests s (attentionExpires s) := by
  unfold attentionExpires
  split
  · exact SameRest.rests {}
  · exact .rfl

theorem tick_rests (s : State) : Rests s (tick s) := by
  have hseal : Rests s (tickSealTimer s) := by
    unfold tickSealTimer
    split
    · exact .rfl
    · exact .ite (sealTimerExpires_rests s) (SameRest.rests {})
  have hattn (u : State) : Rests u (tickAttnTimer u) := by
    unfold tickAttnTimer
    split
    · exact .ite (attentionExpires_rests u) (SameRest.rests {})
    · exact .rfl
  exact hseal.trans (hattn _)

/-! ### One step -/

theorem powerOn_rests (sel : Byte) (s : State) : Rests s (powerOn sel s) := by
  obtain ⟨hsettled, hchoice⟩ := quiet_iff.mp (reset_quiet sel)
  have hreset : Rests s { State.resetWith sel with
      offered := s.offered, memStream := s.memStream, fabricOut := s.fabricOut, pending := s.pending } :=
    ⟨fun _ => SameWork.settled (s := State.resetWith sel) {} hsettled,
      fun _ => SameRest.choiceInv (s := State.resetWith sel) {} hchoice⟩
  exact hreset.trans (serve_rests _)

theorem offerWrite_rests {w : FabricWrite} {s t : State} (h : offerWrite w s = .next t) : Rests s t := by
  rw [offerWrite_eq] at h
  split at h
  · cases h
    exact offer_rests _ s
  · cases h

/-- Every command but RECORD_TAKEN: that one takes the head off the seal queue, whose slot is not PATCHING by `SlotInv`. -/
theorem exec_rests {c : Instr} {s t : State} (hc : c ≠ .recordTaken) (h : exec c s = .next t) : Rests s t := by
  cases c with
  | read a len tag =>
    rw [execRead_eq] at h
    split at h
    · cases h
      exact offer_rests _ s
    · cases h
  | passWrite w => exact offerWrite_rests h
  | planWrite w => exact offerWrite_rests h
  | lineStart w => exact offerWrite_rests h
  | continuation w => exact offerWrite_rests h
  | powerOnReset sel => cases h; exact powerOn_rests sel s
  | readResponse tag data => cases h; exact SameRest.rests {}
  | derivedRequestTaken => cases h; exact derivedTaken_rests s
  | recordTaken => exact absurd rfl hc
  | reportWordTaken => cases h; exact reportWordTaken_rests s
  | snapshotWriteTaken => cases h; exact snapshotWriteTaken_rests s
  | fillWriteTaken => cases h; exact fillWriteTaken_rests s
  | sealTimerExpiry => cases h; exact sealTimerExpires_rests s
  | attentionTimerExpiry => cases h; exact attentionExpires_rests s
  | _ => cases h; exact offer_rests _ s

theorem exec_keeps_choice {c : Instr} {s t : State} (h : exec c s = .next t) (hs : ChoiceInv s) : ChoiceInv t := by
  by_cases hc : c = .recordTaken
  · subst hc
    cases h
    exact recordTaken_keeps_choice hs
  · exact (exec_rests hc h).choice hs

theorem exec_keeps_settled {c : Instr} {s t : State} (h : exec c s = .next t) (hslots : SlotInv s) (hs : Settled s) :
    Settled t := by
  by_cases hc : c = .recordTaken
  · subst hc
    cases h
    exact recordTaken_keeps_settled hslots hs
  · exact (exec_rests hc h).settled hs

theorem pending_rests (rest : List Instr) (s : State) : Rests s { s with pending := rest } := SameRest.rests {}

theorem step_keeps_choice {s t : State} (h : step s = .next t) (hs : ChoiceInv s) : ChoiceInv t := by
  unfold step at h
  split at h
  · cases h
    exact (tick_rests s).choice hs
  · exact exec_keeps_choice h ((pending_rests _ s).choice hs)

theorem step_keeps_settled {s t : State} (h : step s = .next t) (hslots : SlotInv s) (hs : Settled s) : Settled t := by
  unfold step at h
  split at h
  · cases h
    exact (tick_rests s).settled hs
  · exact exec_keeps_settled h hslots ((pending_rests _ s).settled hs)

/-- Settles O60: a step ends by settling and by the Report Unit's choice, or changes nothing that either reads; a head that
leaves the seal queue was not PATCHING (`recordTaken_keeps_settled`). -/
theorem stepKeepsChoice : Obligations.StepKeepsChoice := by
  refine ⟨fun s t hs h => step_keeps_choice h hs, fun s t hslots hq h => ?_⟩
  obtain ⟨hsettled, hchoice⟩ := quiet_iff.mp hq
  exact quiet_iff.mpr ⟨step_keeps_settled h hslots hsettled, step_keeps_choice h hchoice⟩

end Sys2Proof.Machine
end

section
/-! FILL_WRITE_TAKEN (R131 to R133, R176, R180): the context advances through the segment, the positions and the runs, and with
the last position done the frame's patching completes, the next frame is taken up, or the drain ends. -/

namespace Sys2Proof.Machine

/-! ### The first position that fills something, found (R130, R132) -/

section
variable {p : StaticPlan} {slot : Fin 32}

theorem fillTarget_eq_target (r : Run) (i : Nat) : fillTarget p slot r.lane (r.first + i) = r.target p slot i := rfl

theorem nextInRun_eq {r : Run} {fuel i j : Nat} {t : Fin 4 × Nat} (hi : i ≤ j) (hj : j < i + fuel)
    (ht : r.target p slot j = some t) (hbelow : ∀ m, i ≤ m → m < j → r.target p slot m = none) :
    nextInRun p slot r fuel i = some (j, t) := by
  induction fuel generalizing i with
  | zero => omega
  | succ n ih =>
    unfold nextInRun
    rw [fillTarget_eq_target]
    rcases Nat.eq_or_lt_of_le hi with rfl | hlt
    · rw [ht]
    · rw [hbelow i (Nat.le_refl i) hlt]
      exact ih hlt (by omega) fun m hm => hbelow m (by omega)

theorem nextInRun_eq_none {r : Run} {fuel i : Nat} (h : ∀ m, i ≤ m → m < i + fuel → r.target p slot m = none) :
    nextInRun p slot r fuel i = none := by
  induction fuel generalizing i with
  | zero => rfl
  | succ n ih =>
    unfold nextInRun
    rw [fillTarget_eq_target, h i (Nat.le_refl i) (by omega)]
    exact ih fun m hm hlt => h m (by omega) (by omega)

/-- The context that works position i of run j, which fills a segment, from its first write on (R128, R131). -/
def PatchWork.first (p : StaticPlan) (slot : Fin 32) (r : Run) (j i : Nat) (t : Fin 4 × Nat) : PatchWork :=
  { slot := slot, runIndex := j, posIndex := i, plane := t.1, byteOffset := 0,
    waiting := some (fillWrite p r.lane t.1 t.2 0) }

theorem worksFrom_first (r : Run) (j i : Nat) (plane : Fin 4) (segment : Nat) :
    WorksFrom p slot r j i plane segment (.active (.first p slot r j i (plane, segment))) :=
  ⟨_, rfl, fillBytes_length _ _ _, fillBytes_pattern plane _⟩

/-- The context at the first position of a run, when no run before it fills anything. -/
theorem nextInRuns_eq {runs : List Run} {index j i : Nat} {r : Run} {t : Fin 4 × Nat}
    (hj : runs[j]? = some r) (hi : i < r.count) (ht : r.target p slot i = some t)
    (hbelow : ∀ m, m < i → r.target p slot m = none) (hnone : NothingToFill p slot (runs.take j)) :
    nextInRuns p slot index runs = some (.first p slot r (index + j) i t) := by
  induction runs generalizing index j with
  | nil => cases hj
  | cons x rest ih =>
    unfold nextInRuns
    cases j with
    | zero =>
      cases hj
      rw [nextInRun_eq (Nat.zero_le i) (by omega) ht fun m _ => hbelow m]
      rfl
    | succ j =>
      rw [List.take_succ_cons] at hnone
      rw [nextInRun_eq_none fun m _ hm => hnone x List.mem_cons_self m (by omega)]
      rw [Nat.add_comm j 1, ← Nat.add_assoc]
      exact ih hj fun y hy => hnone y (List.mem_cons_of_mem _ hy)

theorem nextInRuns_none_iff {runs : List Run} {index : Nat} :
    nextInRuns p slot index runs = none ↔ NothingToFill p slot runs := by
  refine ⟨nextInRuns_none, fun h => ?_⟩
  cases hn : nextInRuns p slot index runs with
  | none => rfl
  | some w =>
    obtain ⟨j, i, r, plane, segment, hj, hi, ht, -⟩ := nextInRuns_some hn
    cases ht.symm.trans (h r (List.mem_of_getElem? hj) i hi)

end

/-! ### The advance of the context (R132) -/

/-- The last write of the segment that the context works has been taken. -/
def SegmentDone (p : StaticPlan) (runs : List Run) (w : PatchWork) (run : Run) : Prop :=
  runs[w.runIndex]? = some run ∧ run.target p w.slot w.posIndex ≠ none
    ∧ p.lanes[run.lane].keep * p.pixelBytes ≤ w.byteOffset + 256

section
variable {p : StaticPlan} {runs : List Run} {w : PatchWork} {run : Run}

theorem advanceWork_segment {plane : Fin 4} {segment : Nat} (hrun : runs[w.runIndex]? = some run)
    (ht : run.target p w.slot w.posIndex = some (plane, segment))
    (hb : w.byteOffset + 256 < p.lanes[run.lane].keep * p.pixelBytes) :
    advanceWork p runs w = some { w with
      byteOffset := w.byteOffset + 256
      waiting := some (fillWrite p run.lane plane segment (w.byteOffset + 256)) } := by
  unfold Run.target at ht
  unfold advanceWork
  simp only [hrun, ht]
  exact if_pos hb

/-- Past the segment's end the context goes on with the next position of the run, or of a later run. -/
theorem advanceWork_past (h : SegmentDone p runs w run) :
    advanceWork p runs w = (nextInRun p w.slot run (run.count - (w.posIndex + 1)) (w.posIndex + 1)).elim
      (nextInRuns p w.slot (w.runIndex + 1) (runs.drop (w.runIndex + 1)))
      fun x => some (.first p w.slot run w.runIndex x.1 x.2) := by
  obtain ⟨hrun, ht, hb⟩ := h
  obtain ⟨t, ht⟩ := Option.ne_none_iff_exists'.mp ht
  unfold Run.target at ht
  unfold advanceWork
  simp only [hrun, ht]
  refine (if_neg (Nat.not_lt.mpr hb)).trans ?_
  cases nextInRun p w.slot run (run.count - (w.posIndex + 1)) (w.posIndex + 1) <;> rfl

/-- With no later position of the run that fills anything, the later runs are searched. -/
theorem advanceWork_laterRuns (h : SegmentDone p runs w run)
    (hrest : ∀ i, w.posIndex < i → i < run.count → run.target p w.slot i = none) :
    advanceWork p runs w = nextInRuns p w.slot (w.runIndex + 1) (runs.drop (w.runIndex + 1)) := by
  rw [advanceWork_past h, nextInRun_eq_none fun m hm hlt => hrest m hm (by omega)]
  rfl

end

/-! ### FILL_WRITE_TAKEN, by what the context advances to -/

/-- The memory port takes the waiting fill write of an ACTIVE context (R13). -/
def FillTaken (s : State) (w : PatchWork) (q : MemRequest) : Prop :=
  Quiet s ∧ s.patch = .active w ∧ w.waiting = some q ∧ fabricWaiting s = false ∧ s.report.presented = none

section
variable {s : State} {w : PatchWork} {q : MemRequest}

theorem issue_livePlan (q : MemRequest) (s : State) : (issue q s).livePlan = s.livePlan := rfl

theorem exec_fillWriteTaken (h : FillTaken s w q) :
    exec .fillWriteTaken s = .next (present (settle (advancePatch w (issue q s)))) := by
  obtain ⟨-, hpatch, hwaiting, hfabric, hpresented⟩ := h
  show Host.Outcome.next (fillWriteTaken s) = _
  simp only [fillWriteTaken, hpatch, hwaiting, hfabric, hpresented, Option.isSome_none, Bool.or_false, Bool.false_eq_true,
    if_false]

/-- The context has more to write: it stays ACTIVE, and nothing follows. -/
theorem exec_fillWriteTaken_some {w' : PatchWork} (h : FillTaken s w q)
    (ha : advanceWork s.livePlan.static (patchListOf w.slot s.table.queue) w = some w') :
    exec .fillWriteTaken s = .next { s with memStream := q :: s.memStream, patch := .active w' } := by
  have hadvance : advancePatch w (issue q s) = { s with memStream := q :: s.memStream, patch := .active w' } := by
    simp only [advancePatch, issue_livePlan, issue_table, ha]
    rfl
  rw [exec_fillWriteTaken h, hadvance]
  obtain ⟨⟨-, hdrain, hchoice⟩, -⟩ := h
  have hsettle : settle { s with memStream := q :: s.memStream, patch := .active w' }
      = { s with memStream := q :: s.memStream, patch := .active w' } := settle_fixed (fun hi => nomatch hi) hdrain
  rw [hsettle]
  exact congrArg Host.Outcome.next (present_fixed hchoice rfl rfl rfl)

/-- The context has worked the last position: the frame's patching completes (R133). -/
theorem exec_fillWriteTaken_none (h : FillTaken s w q)
    (ha : advanceWork s.livePlan.static (patchListOf w.slot s.table.queue) w = none) :
    exec .fillWriteTaken s = .next (present (settle (finishPatch w.slot (issue q s)))) := by
  rw [exec_fillWriteTaken h]
  simp only [advancePatch, issue_livePlan, issue_table, ha]

end

/-! ### The take-up of the first PATCHING entry (R129) -/

section
variable {s : State} {e : SlotEntry} {runs : List Run}

theorem takeUp_of_ne_idle (h : s.patch ≠ .idle) : takeUp s = s := by
  cases hc : s.patch with
  | idle => exact absurd hc h
  | active w => exact takeUp_active hc

theorem takeUp_noPatching (h : ∀ x, .slot x ∈ s.table.queue → s.table.slots[x.slot] ≠ .patching) : takeUp s = s := by
  by_cases hc : s.patch = .idle
  · exact takeUp_none hc (firstPatching_none_iff.mpr h)
  · exact takeUp_of_ne_idle hc

theorem takeUp_takes (hi : s.patch = .idle) (hf : firstPatching s.table = some e) (hl : e.patchList = some runs)
    (hn : ¬NothingToFill s.livePlan.static e.slot runs) :
    ∃ c, takeUp s = { s with patch := c } ∧ TakenUp s.livePlan.static e.slot runs c := by
  cases hw : nextInRuns s.livePlan.static e.slot 0 runs with
  | none => exact absurd (nextInRuns_none hw) hn
  | some w => exact ⟨.active w, takeUp_some hi hf (by rw [hl]; exact hw), takenUp_of_nextInRuns hw⟩

theorem takeUp_nothing (hi : s.patch = .idle) (hf : firstPatching s.table = some e) (hl : e.patchList = some runs)
    (hn : NothingToFill s.livePlan.static e.slot runs) : takeUp s = takeUp (finishPatch e.slot s) :=
  takeUp_finish hi hf (by rw [hl]; exact nextInRuns_none_iff.mpr hn)

/-- With a slot PATCHING the drain goes on. -/
theorem drainTest_patching {k : Fin 32} (h : s.table.slots[k] = .patching) : drainTest s = s :=
  if_neg fun hd => anyPatching_false_iff.mp hd.2.2 k h

theorem settle_takes (hi : s.patch = .idle) (hf : firstPatching s.table = some e) (hl : e.patchList = some runs)
    (hn : ¬NothingToFill s.livePlan.static e.slot runs) :
    ∃ c, settle s = { s with patch := c } ∧ TakenUp s.livePlan.static e.slot runs c := by
  obtain ⟨c, htake, hc⟩ := takeUp_takes hi hf hl hn
  refine ⟨c, ?_, hc⟩
  unfold settle
  rw [htake]
  exact drainTest_patching (firstPatching_mem hf).2

end

/-! ### The end of a drain (R176, R180) -/

section
variable {u : State}

theorem settle_noPatching (hslots : ∀ k : Fin 32, u.table.slots[k] ≠ .patching) : settle u = drainTest u :=
  congrArg drainTest (takeUp_noPatching fun x _ => hslots x.slot)

theorem drainTest_patch (u : State) : (drainTest u).patch = u.patch := by
  unfold drainTest
  split
  · exact (completeDrain_rest u).1
  · rfl

theorem drainTest_done (hd : u.capture.device = .draining) (ho : u.table.openFrames = [])
    (hslots : ∀ k : Fin 32, u.table.slots[k] ≠ .patching) : drainTest u = completeDrain u :=
  if_pos ⟨hd, ho, anyPatching_false_iff.mpr hslots⟩

theorem completeDrain_singleDone (h : u.capture.drainCause = .singleDone) :
    completeDrain u = handNotice .stopped .singleDone
      { u with capture := { u.capture with device := .stopped, drainCause := .none } } := by
  unfold completeDrain
  rw [h]

theorem completeDrain_stop (h : u.capture.drainCause = .stop) :
    completeDrain u = answerStop (handNotice .stopped .stop
      { u with capture := { u.capture with device := .stopped, drainCause := .none } }) := by
  unfold completeDrain
  rw [h]

theorem answerStop_stateNotice (s : State) : (answerStop s).report.stateNotice = s.report.stateNotice := by
  unfold answerStop
  split <;> rfl

/-- The drain of a single capture ends with its notice. -/
theorem present_drained_singleDone (h : u.capture.drainCause = .singleDone) :
    let t := present (completeDrain u)
    t.report.stateNotice = some { device := .stopped, cause := .singleDone, generation := u.plan.generation,
                                  origin := u.reg.origin }
      ∧ t.plan = u.plan := by
  dsimp only
  rw [present_plan, (present_chosen _).stateNotice, completeDrain_singleDone h]
  exact ⟨rfl, rfl⟩

/-- The drain of a STOP ends with its notice, and a pending STOP is answered. -/
theorem present_drained_stop (h : u.capture.drainCause = .stop) :
    let t := present (completeDrain u)
    t.report.stateNotice = some { device := .stopped, cause := .stop, generation := u.plan.generation,
                                  origin := u.reg.origin }
      ∧ ∀ tag, u.plan.pendingCommand = some (.stop tag) →
        t.plan = { u.plan with pendingCommand := none } ∧ Answered tag (0x50, 0x00) .stopped t := by
  dsimp only
  rw [(present_chosen _).stateNotice, completeDrain_stop h, answerStop_stateNotice]
  refine ⟨rfl, fun tag htag => ?_⟩
  have hpending : (handNotice .stopped .stop
      { u with capture := { u.capture with device := .stopped, drainCause := .none } }).plan.pendingCommand
      = some (.stop tag) := htag
  rw [answerStop_pending hpending]
  exact ⟨present_plan _, answered_present tag rDone _⟩

/-- With nothing to take up the step ends with the completion test, which changes the frame table and the patch context in no
case, and outside a complete drain changes nothing. -/
theorem present_settle_noPatching (hi : u.patch = .idle) (hslots : ∀ k : Fin 32, u.table.slots[k] ≠ .patching) :
    let t := present (settle u)
    t.memStream = u.memStream ∧ t.patch = .idle ∧ t.table = u.table
      ∧ (u.capture.device ≠ .draining → t.capture = u.capture ∧ t.plan = u.plan)
      ∧ (u.capture.device = .draining → u.table.openFrames = [] → t = present (completeDrain u)) := by
  dsimp only
  rw [settle_noPatching hslots]
  refine ⟨?_, ?_, ?_, fun hd => ?_, fun hd ho => ?_⟩
  · rw [(present_chosen _).path.memStream, (drainTest_inner u).memStream]
  · rw [present_patch, drainTest_patch, hi]
  · rw [present_table, drainTest_table]
  · rw [present_capture, present_plan, drainTest, if_neg fun h => hd h.1]
    exact ⟨rfl, rfl⟩
  · rw [drainTest_done hd ho hslots]

end

/-! ### The obligation, a lemma for each of its parts -/

section
variable {s : State} {w : PatchWork} {q : MemRequest} {run : Run}

theorem fill_segment {plane : Fin 4} {segment : Nat} (h : FillTaken s w q)
    (hrun : (patchListOf w.slot s.table.queue)[w.runIndex]? = some run)
    (ht : run.target s.livePlan.static w.slot w.posIndex = some (plane, segment))
    (hb : w.byteOffset + 256 < (s.entry run.lane).keep * s.livePlan.static.pixelBytes) :
    ∃ data, exec .fillWriteTaken s = .next { s with
        memStream := q :: s.memStream
        patch := .active { w with byteOffset := w.byteOffset + 256,
                                  waiting := some (.write (segment + (w.byteOffset + 256)) 0 data) } }
      ∧ data.length = min 256 ((s.entry run.lane).keep * s.livePlan.static.pixelBytes - (w.byteOffset + 256))
      ∧ FillPattern s.livePlan.static plane data :=
  ⟨_, exec_fillWriteTaken_some h (advanceWork_segment hrun ht hb), fillBytes_length _ _ _, fillBytes_pattern plane _⟩

theorem fill_position {i segment : Nat} {plane : Fin 4} (h : FillTaken s w q)
    (hd : SegmentDone s.livePlan.static (patchListOf w.slot s.table.queue) w run) (hi : w.posIndex < i)
    (hcount : i < run.count) (ht : run.target s.livePlan.static w.slot i = some (plane, segment))
    (hbelow : ∀ i', w.posIndex < i' → i' < i → run.target s.livePlan.static w.slot i' = none) :
    ∃ c, exec .fillWriteTaken s = .next { s with memStream := q :: s.memStream, patch := c }
      ∧ WorksFrom s.livePlan.static w.slot run w.runIndex i plane segment c :=
  ⟨_, exec_fillWriteTaken_some h
      ((advanceWork_past hd).trans (by rw [nextInRun_eq hi (by omega) ht hbelow]; rfl)),
    worksFrom_first run w.runIndex i plane segment⟩

theorem fill_run {j i segment : Nat} {r : Run} {plane : Fin 4} (h : FillTaken s w q)
    (hd : SegmentDone s.livePlan.static (patchListOf w.slot s.table.queue) w run)
    (hrest : ∀ i, w.posIndex < i → i < run.count → run.target s.livePlan.static w.slot i = none)
    (hlater : w.runIndex < j) (hj : (patchListOf w.slot s.table.queue)[j]? = some r) (hi : i < r.count)
    (ht : r.target s.livePlan.static w.slot i = some (plane, segment))
    (hbelow : ∀ i', i' < i → r.target s.livePlan.static w.slot i' = none)
    (hnone : NothingToFill s.livePlan.static w.slot
      (((patchListOf w.slot s.table.queue).take j).drop (w.runIndex + 1))) :
    ∃ c, exec .fillWriteTaken s = .next { s with memStream := q :: s.memStream, patch := c }
      ∧ WorksFrom s.livePlan.static w.slot r j i plane segment c := by
  obtain ⟨k, rfl⟩ := Nat.exists_eq_add_of_lt hlater
  have hindex : w.runIndex + k + 1 = w.runIndex + 1 + k := by omega
  rw [hindex] at hj hnone ⊢
  have hn := nextInRuns_eq (index := w.runIndex + 1) (runs := (patchListOf w.slot s.table.queue).drop (w.runIndex + 1))
    (by rw [List.getElem?_drop]; exact hj) hi ht hbelow (by rwa [List.drop_take, Nat.add_sub_cancel_left] at hnone)
  exact ⟨_, exec_fillWriteTaken_some h ((advanceWork_laterRuns hd hrest).trans hn),
    worksFrom_first r _ i plane segment⟩

theorem fill_last (h : FillTaken s w q) (hd : SegmentDone s.livePlan.static (patchListOf w.slot s.table.queue) w run)
    (hrest : ∀ i, w.posIndex < i → i < run.count → run.target s.livePlan.static w.slot i = none)
    (hnone : NothingToFill s.livePlan.static w.slot ((patchListOf w.slot s.table.queue).drop (w.runIndex + 1))) :
    exec .fillWriteTaken s = .next (present (settle (finishPatch w.slot (issue q s)))) :=
  exec_fillWriteTaken_none h
    ((advanceWork_laterRuns hd hrest).trans (nextInRuns_none_iff.mpr hnone))

/-- No slot is PATCHING any more once the only one that was has completed. -/
theorem finishPatch_noPatching {k : Fin 32} (h : ∀ j : Fin 32, j ≠ k → s.table.slots[j] ≠ .patching) (j : Fin 32) :
    (finishPatch k s).table.slots[j] ≠ .patching := fun hj => by
  obtain ⟨hpatching, hne⟩ := (finishPatch_patching_iff k j s).mp hj
  exact h j hne hpatching

end

/-- Settles O35: the next write of the segment (`fill_segment`), the next position (`fill_position`), a later run
(`fill_run`), the end of the frame (`fill_last`) with what follows it, and the take-up. -/
theorem fillWritesAreTaken : Obligations.FillWritesAreTaken := by
  unfold Obligations.FillWritesAreTaken
  intro takes segmentDone filled firstIs
  have filled_eq (k : Fin 32) (s : State) (hi : s.patch = .idle) : filled k s = finishPatch k s :=
    (finishPatch_eq k hi fun x => by cases x <;> rfl).symm
  have firstPatching_of {s : State} {e : SlotEntry} {runs : List Run} (h : firstIs s e runs) :
      firstPatching s.table = some e := by
    obtain ⟨-, hpatching, older, younger, hqueue, hold⟩ := h
    exact firstPatching_eq hqueue hpatching hold
  refine ⟨fun s w q run plane segment h hrun ht hb => fill_segment h hrun ht hb, fun s w q run h hd => ⟨?_, ?_⟩, ?_, ?_⟩
  · exact fun i plane segment hi hcount ht hbelow => fill_position h hd hi hcount ht hbelow
  · exact fun hrest j r i plane segment hlater hj hi ht hbelow hnone => fill_run h hd hrest hlater hj hi ht hbelow hnone
  · intro s w q run h hd p runs after stopped notice hrest hnone
    have hafter : after = finishPatch w.slot (issue q s) :=
      filled_eq w.slot { s with memStream := q :: s.memStream, patch := .idle } rfl
    have hexec : exec .fillWriteTaken s = .next (present (settle after)) := by
      rw [hafter]
      exact fill_last h hd hrest hnone
    refine ⟨hexec, fun e next hfirst hn => ?_, fun hslots => ?_⟩
    · obtain ⟨c, hsettle, hc⟩ := settle_takes rfl (firstPatching_of hfirst) hfirst.1 hn
      exact ⟨c, hsettle ▸ hexec, hc⟩
    · have hdone : ∀ k : Fin 32, after.table.slots[k] ≠ .patching := by
        rw [hafter]
        exact finishPatch_noPatching hslots
      obtain ⟨hmem, hpatch, htable, hother, hdrained⟩ := present_settle_noPatching (u := after) rfl hdone
      refine ⟨_, hexec, hmem, hpatch, htable, hother, fun hd ho => ?_⟩
      rw [hdrained hd ho, present_capture]
      exact ⟨(completeDrain_rest after).2.2, present_drained_singleDone (u := after), present_drained_stop (u := after)⟩
  · intro s p
    refine ⟨takeUp_of_ne_idle, takeUp_noPatching, fun e runs hi hfirst => ⟨fun hn => ?_, fun hn => ?_⟩⟩
    · exact takeUp_takes hi (firstPatching_of hfirst) hfirst.1 hn
    · rw [filled_eq e.slot s hi]
      exact takeUp_nothing hi (firstPatching_of hfirst) hfirst.1 hn

end Sys2Proof.Machine
end

section
/-! COMMITs that take nothing (R161, R162): a failing plan check, a static field that differs while lines are captured, and
a plan that is live already. -/

namespace Sys2Proof.Machine

/-! ### The answers of COMMIT that leave the state as it is -/

section
variable {p old : Plan} {s : State} {k : Nat}

/-- The static fields are compared before any check, in ARMED and RUNNING (R162). -/
theorem commitPlan_runningField (hlive : s.plan.live = some old)
    (hd : s.capture.device = .armed ∨ s.capture.device = .running) (hstatic : p.static ≠ old.static) :
    commitPlan p s = (s, some rRunningField) := by
  unfold commitPlan
  rw [hlive]
  exact if_pos ⟨hd, hstatic⟩

/-- The checks decide where that comparison refuses nothing (R161). -/
theorem commitPlan_planInvalid (hfail : failedCheck s p = some k)
    (hstatic : ∀ old, s.plan.live = some old → s.capture.device = .armed ∨ s.capture.device = .running →
      p.static = old.static) : commitPlan p s = (s, some (rPlanInvalid k)) := by
  unfold commitPlan
  cases hlive : s.plan.live with
  | none => rw [hfail]
  | some old =>
    dsimp only
    rw [if_neg fun hrun => hrun.2 (hstatic old hlive hrun.1), hfail]

theorem commitPlan_nothing (hlive : s.plan.live = some p) (hpass : failedCheck s p = none) :
    commitPlan p s = (s, some rNothing) := by
  unfold commitPlan
  rw [hlive]
  dsimp only
  rw [if_neg fun hrun => hrun.2 rfl, hpass]
  exact if_pos rfl

end

section
variable {m : Mailbox} {s : State}

/-- The mailbox write changes nothing that a plan check reads. -/
theorem failedCheck_withMailbox (code : Byte) (p : Plan) : failedCheck (s.withMailbox code m) p = failedCheck s p := rfl

/-- A COMMIT that leaves the state as it is is answered, and nothing else follows. -/
theorem commit_answered {r : ResultWord} (h : Commanded m s) (hp : s.plan.pendingCommand = none)
    (hd : s.capture.device ≠ .draining)
    (hr : commitPlan (readPlan (s.withMailbox 0x01 m).plan.shadow) (s.withMailbox 0x01 m)
      = (s.withMailbox 0x01 m, some r)) :
    exec (.commit m) s = .next (present (answer m.tag r (s.withMailbox 0x01 m))) := by
  rw [commit_performed h hp hd, hr]
  rfl

end

/-- Settles O45: each answer is one of `commitPlan`, given through the mailbox (`commit_answered`). -/
theorem commitsThatTakeNothing : Obligations.CommitsThatTakeNothing := by
  intro m s h hp hd c p capturing answers
  have answered {r : ResultWord} (hr : commitPlan p c = (c, some r)) : answers r := commit_answered h hp hd hr
  have hcheck : failedCheck c p = failedCheck s p := failedCheck_withMailbox 0x01 p
  rw [← hcheck]
  refine ⟨fun k hfail hidle => answered (commitPlan_planInvalid hfail fun old hlive hrun => ?_),
    fun old hlive hrun hstatic => answered (commitPlan_runningField hlive hrun hstatic),
    fun old k hlive hstatic hfail => answered (commitPlan_planInvalid hfail fun old' hlive' _ => ?_),
    fun hlive hpass => answered (commitPlan_nothing hlive hpass)⟩
  · rcases hidle with hnone | hidle
    · cases hnone.symm.trans hlive
    · exact absurd hrun hidle
  · obtain rfl : old = old' := Option.some.inj (hlive.symm.trans hlive')
    exact hstatic

end Sys2Proof.Machine
end

section
/-! The words of the plan checks (R163, R164): ranges, powers of two, multiples, byte ranges that share no byte, and the used
planes, lanes and REQ_TAGs; and the order of the checks (R161). -/

namespace Sys2Proof.Machine

/-! ### The order of the checks (R161) -/

theorem firstFailing_eq_none_iff {n : Nat} {oks : List Bool} :
    firstFailing n oks = none ↔ ∀ i < oks.length, oks[i]? = some true := by
  fun_induction firstFailing n oks with
  | case1 => exact ⟨fun _ _ h => absurd h (Nat.not_lt_zero _), fun _ => rfl⟩
  | case2 n rest ih =>
    rw [ih, List.length_cons, Nat.forall_lt_succ_left]
    exact (and_iff_right rfl).symm
  | case3 n ok rest hok =>
    refine ⟨nofun, fun h => absurd (h 0 (Nat.succ_pos _)) ?_⟩
    rw [List.getElem?_cons_zero]
    exact fun h => hok (Option.some.inj h)

theorem firstFailing_eq_some_iff {n k : Nat} {oks : List Bool} :
    firstFailing n oks = some k ↔ ∃ i, k = n + i ∧ oks[i]? = some false ∧ ∀ j < i, oks[j]? = some true := by
  fun_induction firstFailing n oks with
  | case1 => exact ⟨nofun, fun ⟨i, _, h, _⟩ => by cases h⟩
  | case2 n rest ih =>
    rw [ih]
    constructor
    · rintro ⟨i, rfl, hfail, hpass⟩
      exact ⟨i + 1, by omega, hfail, Nat.forall_lt_succ_left.mpr ⟨rfl, hpass⟩⟩
    · rintro ⟨_ | i, hk, hfail, hpass⟩
      · cases hfail
      · exact ⟨i, by omega, hfail, (Nat.forall_lt_succ_left.mp hpass).2⟩
  | case3 n ok rest hok =>
    obtain rfl : ok = false := Bool.eq_false_iff.mpr hok
    constructor
    · rintro ⟨⟩
      exact ⟨0, rfl, rfl, fun _ h => absurd h (Nat.not_lt_zero _)⟩
    · rintro ⟨_ | i, rfl, -, hpass⟩
      · rfl
      · cases hpass 0 (Nat.succ_pos i)

/-- Plan check k passes; the checks count from 1. -/
def PassesCheck (s : State) (p : Plan) (k : Nat) : Prop := (planChecks s p)[k - 1]? = some true

section
variable {s : State} {p : Plan}

theorem failedCheck_eq_none_iff : failedCheck s p = none ↔ ∀ k, 1 ≤ k → k ≤ 15 → PassesCheck s p k := by
  refine firstFailing_eq_none_iff.trans ⟨fun h k hlo hhi => h (k - 1) ?_, fun h i hi => h (i + 1) (Nat.le_add_left 1 i) hi⟩
  show k - 1 < 15
  omega

theorem failedCheck_eq_some_iff {k : Nat} :
    failedCheck s p = some k ↔ 1 ≤ k ∧ k ≤ 15 ∧ ¬PassesCheck s p k ∧ ∀ i, 1 ≤ i → i < k → PassesCheck s p i := by
  refine firstFailing_eq_some_iff.trans ⟨?_, ?_⟩
  · rintro ⟨i, rfl, hfail, hpass⟩
    have hi : i < 15 := (List.getElem?_eq_some_iff.mp hfail).1
    refine ⟨by omega, by omega, ?_, fun j hlo hhi => hpass (j - 1) (by omega)⟩
    unfold PassesCheck
    rw [Nat.add_sub_cancel_left, hfail]
    exact nofun
  · rintro ⟨hlo, hhi, hfail, hpass⟩
    obtain ⟨i, rfl⟩ := Nat.exists_eq_add_of_le hlo
    have hi : i < (planChecks s p).length := by show i < 15; omega
    refine ⟨i, rfl, ?_, fun j hj => hpass (j + 1) (Nat.le_add_left 1 j) (by omega)⟩
    unfold PassesCheck at hfail
    rw [Nat.add_sub_cancel_left, List.getElem?_eq_getElem hi, Option.some_inj, Bool.not_eq_true] at hfail
    rw [List.getElem?_eq_getElem hi, hfail]

end

/-! ### Numbers -/

@[simp] theorem inRange_iff {lo hi n : Nat} : inRange lo hi n = true ↔ lo ≤ n ∧ n ≤ hi := by
  simp only [inRange, Bool.and_eq_true, decide_eq_true_eq]

@[simp] theorem multipleOf_iff {d n : Nat} : multipleOf d n = true ↔ n % d = 0 := decide_eq_true_iff

@[simp] theorem isPowerOfTwo_iff {lo hi n : Nat} : isPowerOfTwo lo hi n = true ↔ ∃ k, lo ≤ k ∧ k ≤ hi ∧ n = 2 ^ k := by
  simp only [isPowerOfTwo, List.any_eq_true, List.mem_range, Nat.lt_succ_iff, Bool.and_eq_true, decide_eq_true_eq]
  exact exists_congr fun k => and_left_comm

/-! ### Byte ranges that share no byte -/

/-- Two byte ranges (start, length) that share no byte. -/
def Apart (a b : Nat × Nat) : Prop := a.1 + a.2 ≤ b.1 ∨ b.1 + b.2 ≤ a.1 ∨ a.2 = 0 ∨ b.2 = 0

theorem Apart.symm {a b : Nat × Nat} (h : Apart a b) : Apart b a := by
  unfold Apart at h ⊢
  omega

theorem disjoint_iff_apart {a b : Nat × Nat} : disjoint a b = true ↔ Apart a b := by
  simp only [disjoint, Apart, Bool.or_eq_true, decide_eq_true_eq, or_assoc]

theorem pairwiseDisjoint_iff {rs : List (Nat × Nat)} : pairwiseDisjoint rs = true ↔ rs.Pairwise Apart := by
  induction rs with
  | nil => exact ⟨fun _ => .nil, fun _ => rfl⟩
  | cons r rest ih =>
    simp only [pairwiseDisjoint, Bool.and_eq_true, List.all_eq_true, disjoint_iff_apart, ih, List.pairwise_cons]

/-- Of a list without duplicates, the chosen ones are pairwise related exactly when every two different ones are. -/
theorem pairwise_map_filter_iff {α β : Type} {l : List α} {q : α → Bool} {g : α → β} {R : β → β → Prop}
    (hl : l.Nodup) (hall : ∀ a, a ∈ l) (hR : ∀ a b, R a b → R b a) :
    ((l.filter q).map g).Pairwise R ↔ ∀ a b, a ≠ b → q a = true → q b = true → R (g a) (g b) := by
  rw [List.pairwise_map]
  constructor
  · intro h a b hne ha hb
    have : Std.Symm fun x y => R (g x) (g y) := ⟨fun x y => hR (g x) (g y)⟩
    exact h.forall (List.mem_filter.mpr ⟨hall a, ha⟩) (List.mem_filter.mpr ⟨hall b, hb⟩) hne
  · intro h
    exact (hl.filter q).imp_of_mem fun ha hb hne => h _ _ hne (List.mem_filter.mp ha).2 (List.mem_filter.mp hb).2

/-! ### Vectors as lists -/

theorem toList_eq_map_finRange {α : Type} {n : Nat} (v : Vector α n) : v.toList = (List.finRange n).map fun i => v[i] := by
  apply List.ext_getElem <;> simp

theorem take_finRange_four (n : Nat) : (List.finRange 4).take n = (List.finRange 4).filter fun i => decide (i.val < n) := by
  rcases Nat.lt_or_ge n 4 with hn | hn
  · revert n; decide
  · rw [List.take_of_length_le (by rw [List.length_finRange]; exact hn), List.filter_eq_self.mpr]
    exact fun i _ => decide_eq_true (i.isLt.trans_le hn)

/-! ### Used planes, lanes with a window, used REQ_TAGs (R90, R16, R164) -/

theorem mem_allPlanes (i : Fin 4) : i ∈ allPlanes := by
  revert i; decide

/-- Phase-map entry i is one of the F entries, and names this plane (R90). -/
def StaticPlan.Names (p : StaticPlan) (i : Fin 4) (plane : Nat) : Prop :=
  i.val < p.phases ∧ p.phaseMap[i] = plane ∧ plane < 4

/-- A plane that the phase map names (R90). -/
def StaticPlan.Uses (p : StaticPlan) (i : Fin 4) : Prop := ∃ j, p.Names j i.val

/-- A lane that is not vacant (R16). -/
def StaticPlan.HasWindow (p : StaticPlan) (n : Lane) : Prop := p.lanes[n].winLines ≠ 0

section
variable {p : StaticPlan}

theorem planeUsed_iff {i : Fin 4} : p.planeUsed i = true ↔ p.Uses i := by
  simp only [StaticPlan.planeUsed, List.any_eq_true, List.mem_range, beq_iff_eq, planeOfPhase_eq_some_iff]
  constructor
  · rintro ⟨_, hlt, j, rfl, hj⟩
    exact ⟨j, hlt, hj, i.isLt⟩
  · rintro ⟨j, hlt, hj, -⟩
    exact ⟨j, hlt, j, rfl, hj⟩

theorem not_vacant_iff {n : Lane} : (!p.lanes[n].vacant) = true ↔ p.HasWindow n := by
  rw [LaneEntry.vacant, Bool.not_eq_true', decide_eq_false_iff_not]
  rfl

theorem mem_usedLanes {n : Lane} : n ∈ usedLanes p ↔ p.HasWindow n :=
  List.mem_filter.trans ((and_iff_right (mem_allLanes n)).trans not_vacant_iff)

/-- A property asked of every used plane. -/
theorem all_planes_iff {q : Fin 4 → Bool} :
    (allPlanes.all fun i => !p.planeUsed i || q i) = true ↔ ∀ i, p.Uses i → q i = true := by
  rw [List.all_eq_true]
  refine forall_congr' fun i => (imp_iff_right (mem_allPlanes i)).trans ?_
  rw [Bool.or_eq_true, Bool.not_eq_true', ← Bool.not_eq_true, ← Decidable.imp_iff_not_or, planeUsed_iff]

/-- A property asked of every lane with a window. -/
theorem all_lanes_iff {q : Lane → Bool} :
    (allLanes.all fun n => p.lanes[n].vacant || q n) = true ↔ ∀ n, p.HasWindow n → q n = true := by
  rw [List.all_eq_true]
  refine forall_congr' fun n => (imp_iff_right (mem_allLanes n)).trans ?_
  rw [← not_vacant_iff, Bool.or_eq_true, Bool.not_eq_true', ← Bool.not_eq_true, Decidable.imp_iff_not_or,
    Decidable.not_not]

theorem phaseEntries_eq :
    phaseEntries p = ((List.finRange 4).filter fun i => decide (i.val < p.phases)).map fun i => p.phaseMap[i] := by
  rw [phaseEntries, toList_eq_map_finRange, ← List.map_take, take_finRange_four]

theorem mem_phaseEntries {e : Nat} : e ∈ phaseEntries p ↔ ∃ i : Fin 4, i.val < p.phases ∧ p.phaseMap[i] = e := by
  simp only [phaseEntries_eq, List.mem_map, List.mem_filter, List.mem_finRange, true_and, decide_eq_true_eq]

theorem usedAliases_eq :
    usedAliases p = ((List.finRange 8).filter fun i => decide (p.aliases[i].reqTag ≠ 0)).map fun i => p.aliases[i] := by
  rw [usedAliases, toList_eq_map_finRange, List.filter_map]
  rfl

theorem mem_usedAliases {a : AliasEntry} :
    a ∈ usedAliases p ↔ ∃ i : Fin 8, p.aliases[i].reqTag ≠ 0 ∧ p.aliases[i] = a := by
  simp only [usedAliases_eq, List.mem_map, List.mem_filter, List.mem_finRange, true_and, decide_eq_true_eq]

end

end Sys2Proof.Machine
end

section
/-! What each of the fifteen plan checks asks (R163, R164), and the obligation that collects them with their order (R161). -/

namespace Sys2Proof.Machine

section
variable {p : Plan}

/-! ### The fields (checks 1 to 6) -/

theorem check1_iff : check1 p = true ↔ 1 ≤ p.static.phases ∧ p.static.phases ≤ 4 ∧ p.static.phaseRot < p.static.phases := by
  simp only [check1, Bool.and_eq_true, inRange_iff, decide_eq_true_eq, and_assoc]

/-- No plane is named twice: the entries that name one are those of different places. -/
theorem namedEntries_nodup_iff {f : StaticPlan} :
    ((phaseEntries f).filter fun e => decide (e < 4)).Nodup
      ↔ ∀ (i j : Fin 4) (plane : Nat), f.Names i plane → f.Names j plane → i = j := by
  rw [phaseEntries_eq, List.filter_map, List.filter_filter, List.nodup_map_iff_inj_on ((List.nodup_finRange 4).filter _)]
  simp only [List.mem_filter, List.mem_finRange, true_and, Bool.and_eq_true, Function.comp_apply, decide_eq_true_eq]
  constructor
  · rintro h i j _ ⟨hi, rfl, h4⟩ ⟨hj, he, -⟩
    exact h i ⟨h4, hi⟩ j ⟨he ▸ h4, hj⟩ he.symm
  · rintro h i ⟨h4, hi⟩ j ⟨-, hj⟩ he
    exact h i j _ ⟨hi, rfl, h4⟩ ⟨hj, he.symm, h4⟩

theorem namedEntries_ne_nil_iff {f : StaticPlan} :
    (!((phaseEntries f).filter fun e => decide (e < 4)).isEmpty) = true ↔ ∃ i, f.Uses i := by
  rw [Bool.not_eq_true', List.isEmpty_eq_false_iff_exists_mem]
  simp only [List.mem_filter, mem_phaseEntries, decide_eq_true_eq]
  constructor
  · rintro ⟨e, ⟨i, hi, he⟩, h4⟩
    exact ⟨⟨e, h4⟩, i, hi, he, h4⟩
  · rintro ⟨plane, i, hi, he, h4⟩
    exact ⟨plane.val, ⟨i, hi, he⟩, h4⟩

theorem check2_iff : check2 p = true ↔
    (∀ i : Fin 4, i.val < p.static.phases → p.static.phaseMap[i] ≤ 3 ∨ p.static.phaseMap[i] = 255)
      ∧ (∃ i, p.static.Uses i)
      ∧ ∀ (i j : Fin 4) (plane : Nat), p.static.Names i plane → p.static.Names j plane → i = j := by
  have hentries : ((phaseEntries p.static).all fun e => decide (e < 4) || decide (e = Config.discard)) = true
      ↔ ∀ i : Fin 4, i.val < p.static.phases → p.static.phaseMap[i] ≤ 3 ∨ p.static.phaseMap[i] = 255 := by
    simp only [List.all_eq_true, mem_phaseEntries, Bool.or_eq_true, decide_eq_true_eq, Nat.lt_succ_iff]
    exact ⟨fun h i hi => h _ ⟨i, hi, rfl⟩, fun h e ⟨i, hi, he⟩ => he ▸ h i hi⟩
  simp only [check2, Bool.and_eq_true, hentries, namedEntries_ne_nil_iff, decide_eq_true_eq, namedEntries_nodup_iff,
    and_assoc]

theorem check3_iff : check3 p = true ↔ 16 ≤ p.static.frameRows ∧ p.static.frameRows ≤ 65535
    ∧ 16 * 65536 ≤ p.static.repeatLen ∧ p.static.repeatLen ≤ p.static.frameRows * 65536 := by
  simp only [check3, Bool.and_eq_true, inRange_iff, and_assoc, Config.fine, Nat.mul_comm]

theorem check4_iff : check4 p = true ↔ p.static.markOffset < p.static.repeatLen ∧ 1 ≤ p.run.markWindow
    ∧ p.run.markWindow ≤ 255 ∧ p.run.markGain ≤ 4 ∧ p.run.markMaxStep ≤ 524288 := by
  simp only [check4, Bool.and_eq_true, inRange_iff, decide_eq_true_eq, Nat.zero_le, true_and, and_assoc]

theorem check5_iff : check5 p = true ↔ 1 ≤ p.static.slots ∧ p.static.slots ≤ 32 ∧ p.run.sealTimeout ≤ 1000000 := by
  simp only [check5, Bool.and_eq_true, inRange_iff, Nat.zero_le, true_and, and_assoc]

theorem check6_iff : check6 p = true ↔ p.static.pixelBytes = 1 ∨ p.static.pixelBytes = 2 := by
  unfold check6
  rw [inRange_iff]
  omega

/-! ### The plane and lane tables (checks 7 to 11) -/

theorem pitchOk_iff {pitch : Nat} : pitchOk pitch = true ↔
    (∃ k, 4 ≤ k ∧ k ≤ 12 ∧ pitch = 2 ^ k) ∨ (pitch % 4096 = 0 ∧ 1 ≤ pitch ∧ pitch ≤ 1048576) := by
  simp only [pitchOk, Bool.or_eq_true, Bool.and_eq_true, isPowerOfTwo_iff, multipleOf_iff, inRange_iff]

theorem check7_iff : check7 p = true ↔ ∀ i : Fin 4, p.static.Uses i →
    p.static.planes[i].base % 4096 = 0 ∧ p.static.planes[i].stride % 4096 = 0
      ∧ ((∃ k, 4 ≤ k ∧ k ≤ 12 ∧ p.static.planes[i].pitch = 2 ^ k)
        ∨ (p.static.planes[i].pitch % 4096 = 0 ∧ 1 ≤ p.static.planes[i].pitch ∧ p.static.planes[i].pitch ≤ 1048576))
      ∧ p.static.planes[i].keepMask ≠ 0
      ∧ ((List.range p.static.frameRows).filter fun j => p.static.planes[i].keepMask.testBit (j % 8)).length
          * p.static.planes[i].pitch ≤ p.static.planes[i].stride := by
  refine all_planes_iff.trans (forall_congr' fun i => imp_congr_right fun _ => ?_)
  simp only [planeOk, Bool.and_eq_true, multipleOf_iff, pitchOk_iff, decide_eq_true_eq, keptRows_eq_length, and_assoc]

theorem segmentFits_iff {f : StaticPlan} {e : LaneEntry} {plane : PlaneEntry} : segmentFits f e plane = true ↔
    e.xOffset + e.keep * f.pixelBytes ≤ plane.pitch
      ∧ (plane.pitch % 4096 = 0 → e.xOffset % 4096 + e.keep * f.pixelBytes ≤ 4096) := by
  simp only [segmentFits, Bool.and_eq_true, Bool.or_eq_true, Bool.not_eq_true', ← Bool.not_eq_true, multipleOf_iff,
    decide_eq_true_eq, Decidable.imp_iff_not_or]
  rfl

theorem check8_iff : check8 p = true ↔ ∀ n : Lane, p.static.HasWindow n →
    p.static.lanes[n].winBase % 65536 = 0 ∧ (∃ k, 10 ≤ k ∧ k ≤ 16 ∧ p.static.lanes[n].winStride = 2 ^ k)
      ∧ 2 ≤ p.static.lanes[n].winLines ∧ p.static.lanes[n].winLines ≤ 4096 ∧ p.static.lanes[n].cropFirst ≤ 16383
      ∧ 1 ≤ p.static.lanes[n].keep ∧ p.static.lanes[n].keep ≤ 16384
      ∧ p.static.lanes[n].cropFirst + p.static.lanes[n].keep ≤ 16384
      ∧ 16 + (p.static.lanes[n].cropFirst + p.static.lanes[n].keep) * p.static.pixelBytes ≤ p.static.lanes[n].winStride
      ∧ (p.static.phases : Int) ∣ p.static.lanes[n].delay.toInt
      ∧ ∀ i : Fin 4, p.static.Uses i →
          p.static.lanes[n].xOffset + p.static.lanes[n].keep * p.static.pixelBytes ≤ p.static.planes[i].pitch
            ∧ (p.static.planes[i].pitch % 4096 = 0 →
              p.static.lanes[n].xOffset % 4096 + p.static.lanes[n].keep * p.static.pixelBytes ≤ 4096) := by
  refine all_lanes_iff.trans (forall_congr' fun n => imp_congr_right fun _ => ?_)
  simp only [laneOk, Bool.and_eq_true, multipleOf_iff, isPowerOfTwo_iff, inRange_iff, decide_eq_true_eq, all_planes_iff,
    segmentFits_iff, Int.dvd_iff_emod_eq_zero, Nat.zero_le, true_and, and_assoc]
  rfl

/-- A byte range for each lane with a window, such as its segment or its window. -/
theorem usedLanes_pairwise_apart {f : StaticPlan} {region : Lane → Nat × Nat} :
    ((usedLanes f).map region).Pairwise Apart
      ↔ ∀ a b : Lane, a ≠ b → f.HasWindow a → f.HasWindow b → Apart (region a) (region b) := by
  refine (pairwise_map_filter_iff (by decide) mem_allLanes fun _ _ => Apart.symm).trans ?_
  simp only [not_vacant_iff]

theorem check9_iff : check9 p = true ↔ ∀ a b : Lane, a ≠ b → p.static.HasWindow a → p.static.HasWindow b →
    Apart (p.static.lanes[a].xOffset, p.static.lanes[a].keep * p.static.pixelBytes)
      (p.static.lanes[b].xOffset, p.static.lanes[b].keep * p.static.pixelBytes) :=
  pairwiseDisjoint_iff.trans usedLanes_pairwise_apart

theorem reqTags_nodup_iff {f : StaticPlan} : ((usedAliases f).map AliasEntry.reqTag).Nodup
    ↔ ∀ i j : Fin 8, i ≠ j → f.aliases[i].reqTag ≠ 0 → f.aliases[i].reqTag ≠ f.aliases[j].reqTag := by
  rw [usedAliases_eq, List.map_map, List.nodup_map_iff_inj_on ((List.nodup_finRange 8).filter _)]
  simp only [List.mem_filter, List.mem_finRange, true_and, Function.comp_apply, decide_eq_true_eq]
  constructor
  · exact fun h i j hne hi heq => hne (h i hi j (heq ▸ hi) heq)
  · exact fun h i hi j _ heq => by_contra fun hne => h i j hne hi heq

theorem check10_iff : check10 p = true ↔
    (∀ i : Fin 8, p.static.aliases[i].reqTag ≠ 0 → p.static.aliases[i].lane ≤ 7)
      ∧ (∀ i j : Fin 8, i ≠ j → p.static.aliases[i].reqTag ≠ 0 →
          p.static.aliases[i].reqTag ≠ p.static.aliases[j].reqTag)
      ∧ ∀ n : Lane, p.static.HasWindow n →
          ∃ i : Fin 8, p.static.aliases[i].reqTag ≠ 0 ∧ p.static.aliases[i].lane = n.val := by
  have hlanes : ((usedAliases p.static).all fun a => decide (a.lane < 8)) = true
      ↔ ∀ i : Fin 8, p.static.aliases[i].reqTag ≠ 0 → p.static.aliases[i].lane ≤ 7 := by
    simp only [List.all_eq_true, mem_usedAliases, decide_eq_true_eq, Nat.lt_succ_iff]
    exact ⟨fun h i hi => h _ ⟨i, hi, rfl⟩, fun h a ⟨i, hi, ha⟩ => ha ▸ h i hi⟩
  have hserved (n : Lane) : ((usedAliases p.static).any fun a => decide (a.lane = n.val)) = true
      ↔ ∃ i : Fin 8, p.static.aliases[i].reqTag ≠ 0 ∧ p.static.aliases[i].lane = n.val := by
    simp only [List.any_eq_true, mem_usedAliases, decide_eq_true_eq]
    exact ⟨fun ⟨_, ⟨i, hi, rfl⟩, hn⟩ => ⟨i, hi, hn⟩, fun ⟨i, hi, hn⟩ => ⟨_, ⟨i, hi, rfl⟩, hn⟩⟩
  simp only [check10, Bool.and_eq_true, hlanes, decide_eq_true_eq, reqTags_nodup_iff, List.all_eq_true, mem_usedLanes,
    hserved, and_assoc]

theorem check11_iff : check11 p = true ↔ ∀ n : Lane, p.run.laneEnable.getLsbD n.val = true → p.static.HasWindow n := by
  refine List.all_eq_true.trans (forall_congr' fun n => (imp_iff_right (mem_allLanes n)).trans ?_)
  rw [Bool.or_eq_true, not_vacant_iff, Bool.not_eq_true', ← Bool.not_eq_true, ← Decidable.imp_iff_not_or]
  rfl

/-! ### The ring and the regions (checks 12 and 13) -/

theorem check12_iff : check12 p = true ↔ p.static.ringBase % 4096 = 0
    ∧ (∃ k, 4 ≤ k ∧ k ≤ 12 ∧ p.static.ringEntries = 2 ^ k) ∧ 1 ≤ p.run.attnThreshold
    ∧ p.run.attnThreshold ≤ p.static.ringEntries ∧ p.run.attnDelay ≤ 1000000 := by
  simp only [check12, Bool.and_eq_true, multipleOf_iff, isPowerOfTwo_iff, inRange_iff, Nat.zero_le, true_and, and_assoc]

/-- The frame memory of a plane: SLOTS times its stride (R164). -/
def StaticPlan.planeRegion (f : StaticPlan) (i : Fin 4) : Nat × Nat := (f.planes[i].base, f.slots * f.planes[i].stride)

/-- The landing window of a lane (R16). -/
def StaticPlan.window (f : StaticPlan) (n : Lane) : Nat × Nat :=
  (f.lanes[n].winBase, f.lanes[n].winLines * f.lanes[n].winStride)

/-- The sink page, the ring, the plan page and the status area (R4, R10, R164). -/
def fixedRegions (planBase : Nat) (f : StaticPlan) : List (Nat × Nat) :=
  [(4096 * (f.sinkBase / 4096), 4096), (f.ringBase, 32 * f.ringEntries), (planBase, 4096), (planBase + 4096, 4096)]

theorem planRegions_eq (planBase : Nat) (f : StaticPlan) :
    planRegions planBase f = (allPlanes.filter fun i => f.planeUsed i).map f.planeRegion
      ++ (usedLanes f).map f.window ++ fixedRegions planBase f := rfl

theorem mem_planeRegions {f : StaticPlan} {a : Nat × Nat} :
    a ∈ (allPlanes.filter fun i => f.planeUsed i).map f.planeRegion ↔ ∃ i, f.Uses i ∧ f.planeRegion i = a := by
  simp only [List.mem_map, List.mem_filter, mem_allPlanes, true_and, planeUsed_iff]

theorem mem_windows {f : StaticPlan} {a : Nat × Nat} :
    a ∈ (usedLanes f).map f.window ↔ ∃ n, f.HasWindow n ∧ f.window n = a := by
  simp only [List.mem_map, mem_usedLanes]

theorem planeRegions_pairwise_apart {f : StaticPlan} :
    ((allPlanes.filter fun i => f.planeUsed i).map f.planeRegion).Pairwise Apart
      ↔ ∀ i j : Fin 4, i ≠ j → f.Uses i → f.Uses j → Apart (f.planeRegion i) (f.planeRegion j) := by
  refine (pairwise_map_filter_iff (by decide) mem_allPlanes fun _ _ => Apart.symm).trans ?_
  simp only [planeUsed_iff]

/-- A property asked of every region. -/
theorem forall_planRegions_iff {planBase : Nat} {f : StaticPlan} {P : Nat × Nat → Prop} :
    (∀ a ∈ planRegions planBase f, P a) ↔ (∀ i, f.Uses i → P (f.planeRegion i)) ∧ (∀ n, f.HasWindow n → P (f.window n))
      ∧ ∀ a ∈ fixedRegions planBase f, P a := by
  simp only [planRegions_eq, List.forall_mem_append, mem_planeRegions, mem_windows, and_assoc, forall_exists_index,
    and_imp, forall_apply_eq_imp_iff₂]

theorem planRegions_pairwise_apart {planBase : Nat} {f : StaticPlan} :
    (planRegions planBase f).Pairwise Apart
      ↔ (∀ i j : Fin 4, i ≠ j → f.Uses i → f.Uses j → Apart (f.planeRegion i) (f.planeRegion j))
        ∧ (∀ n m : Lane, n ≠ m → f.HasWindow n → f.HasWindow m → Apart (f.window n) (f.window m))
        ∧ (fixedRegions planBase f).Pairwise Apart
        ∧ (∀ (i : Fin 4) (n : Lane), f.Uses i → f.HasWindow n → Apart (f.planeRegion i) (f.window n))
        ∧ (∀ i : Fin 4, f.Uses i → ∀ a ∈ fixedRegions planBase f, Apart (f.planeRegion i) a)
        ∧ ∀ n : Lane, f.HasWindow n → ∀ a ∈ fixedRegions planBase f, Apart (f.window n) a := by
  rw [planRegions_eq, List.pairwise_append, List.pairwise_append, planeRegions_pairwise_apart, usedLanes_pairwise_apart]
  simp only [List.mem_append, or_imp, forall_and, mem_planeRegions, mem_windows, forall_exists_index, and_imp,
    forall_apply_eq_imp_iff₂]
  constructor
  · rintro ⟨⟨hplanes, hwindows, hcross⟩, hfixed, hplaneFixed, hwindowFixed⟩
    exact ⟨hplanes, hwindows, hfixed, fun i n hi hn => hcross i hi n hn, hplaneFixed, hwindowFixed⟩
  · rintro ⟨hplanes, hwindows, hfixed, hcross, hplaneFixed, hwindowFixed⟩
    exact ⟨⟨hplanes, hwindows, fun i hi n hn => hcross i n hi hn⟩, hfixed, hplaneFixed, hwindowFixed⟩

theorem check13_iff {planBase : Nat} : check13 planBase p = true ↔
    ((∀ i, p.static.Uses i → (p.static.planeRegion i).1 + (p.static.planeRegion i).2 ≤ 2 ^ 48)
      ∧ (∀ n, p.static.HasWindow n → (p.static.window n).1 + (p.static.window n).2 ≤ 2 ^ 48)
      ∧ ∀ a ∈ fixedRegions planBase p.static, a.1 + a.2 ≤ 2 ^ 48)
    ∧ (planRegions planBase p.static).Pairwise Apart := by
  unfold check13
  dsimp only
  rw [Bool.and_eq_true, pairwiseDisjoint_iff, List.all_eq_true, ← forall_planRegions_iff (P := fun a => a.1 + a.2 ≤ 2 ^ 48)]
  simp only [decide_eq_true_eq]
  rfl

/-! ### The live plan, the slots and the ring (checks 14 and 15) -/

theorem check14_iff {live : Option Plan} {t : FrameTable} : check14 live t p = true ↔
    (∃ old, live = some old ∧ p.static.planes = old.static.planes ∧ p.static.slots = old.static.slots)
      ∨ ∀ k : Fin 32, t.slots[k] = .free := by
  have hfree : allSlotsFree t = true ↔ ∀ k : Fin 32, t.slots[k] = .free := by
    simp only [allSlotsFree, toList_eq_map_finRange, List.all_map, List.all_eq_true, List.mem_finRange, true_imp_iff,
      Function.comp_apply, decide_eq_true_eq]
  simp only [check14, Bool.or_eq_true, Option.any_eq_true, samePlanes, Bool.and_eq_true, decide_eq_true_eq, hfree]

theorem recordPresented_eq_false_iff {r : ReportUnit} :
    r.recordPresented = false ↔ ∀ w k, r.presented = some w → w.kind ≠ .record k := by
  unfold ReportUnit.recordPresented
  split
  next k addr data hw =>
    rw [hw]
    exact ⟨nofun, fun h => absurd rfl (h _ k rfl)⟩
  next hno =>
    refine ⟨fun _ w k hw hk => ?_, fun _ => rfl⟩
    obtain ⟨kind, addr, data⟩ := w
    cases hk
    exact hno k addr data hw

theorem check15_iff {live : Option Plan} {r : ReportUnit} : check15 live r p = true ↔
    (∃ old, live = some old ∧ p.static.ringBase = old.static.ringBase ∧ p.static.ringEntries = old.static.ringEntries)
      ∨ (r.producer = r.consumer ∧ ∀ w k, r.presented = some w → w.kind ≠ .record k) := by
  simp only [check15, Bool.or_eq_true, Option.any_eq_true, sameRing, Bool.and_eq_true, decide_eq_true_eq, ReportUnit.ringEmpty,
    Bool.not_eq_true', recordPresented_eq_false_iff]

end

/-- Settles O46: the order of the checks, and each check by its own equivalence. -/
theorem planChecksInOrder : Obligations.PlanChecksInOrder := by
  intro s p passes f r named used lane bytes kept apart planeRegion window fixed
  have passes_of {k : Nat} {ok : Bool} {asked : Prop} (hk : (planChecks s p)[k - 1]? = some ok) (h : ok = true ↔ asked) :
      passes k ↔ asked := by
    show (planChecks s p)[k - 1]? = some true ↔ asked
    rw [hk, Option.some_inj, h]
  have h13 := check13_iff (p := p) (planBase := s.planBase)
  rw [planRegions_pairwise_apart, and_assoc, and_assoc] at h13
  exact ⟨failedCheck_eq_none_iff, fun k => failedCheck_eq_some_iff, rfl, passes_of rfl check1_iff, passes_of rfl check2_iff,
    passes_of rfl check3_iff, passes_of rfl check4_iff, passes_of rfl check5_iff, passes_of rfl check6_iff,
    passes_of rfl check7_iff, passes_of rfl check8_iff, passes_of rfl check9_iff, passes_of rfl check10_iff,
    passes_of rfl check11_iff, passes_of rfl check12_iff, passes_of rfl h13, passes_of rfl check14_iff,
    passes_of rfl check15_iff⟩

end Sys2Proof.Machine
end
